-- ==== Sys2Proof/Word.lean ====
section
/-! DEFINITION. The words the spec moves: registers and command words, bytes, nibbles (00_scope.md R7). -/

namespace Sys2Proof

/-- A host-visible register or a command word (10_state.md R21, 30_encoding.md R81). -/
abbrev Word := BitVec 32

/-- One byte of SRC or DST (20_memory.md R50). -/
abbrev Byte := BitVec 8

/-- A 4-bit unit (00_scope.md R7, R11). -/
abbrev Nibble := BitVec 4

end Sys2Proof
end

