-- ==== Sys2Proof/Config.lean ====
section
/-! DEFINITION. The free values of spec/93 (U1 to U5): opaque constants, so that no proof can see a value. -/

namespace Sys2Proof

/-- U1: what byte `a` of SRC holds while nothing has written it since external reset number `epoch` (log 5). -/
opaque Config.powerOnSrc (epoch a : Nat) : Byte

/-- U1: what byte `a` of DST holds while nothing has written it since external reset number `epoch` (log 5). -/
opaque Config.powerOnDst (epoch a : Nat) : Byte

/-- U2: the byte a host read of SRC or DST returns while a command runs, a fresh draw at each read (log 6). -/
opaque Config.busyRead (draw : Nat) : Byte

/-- U3 and U4: byte `a` of an output window left UNSPECIFIED by draw number `draw` (log 7, log 8). -/
opaque Config.windowByte (draw a : Nat) : Byte

/-- U5: hidden engine register number `reg` after a reset transition, cut to the register's width (log 9). -/
opaque Config.hiddenReg (draw reg : Nat) : BitVec 17

end Sys2Proof
end

