-- ==== Sys2Proof/Machine/State.lean ====
section
/-! DEFINITION. The machine's state: every register, hidden register and buffer of spec/10_state.md and 20_memory.md, as plain data. -/

namespace Sys2Proof.Machine

/-- The engine's phases (10_state.md R40). -/
inductive Phase where
  | idle
  | check
  | eVal
  | eLoad
  | eScan
  | eEmit
  | eFlush
  | dHead
  | dCount
  | dRun
  | dTail
  | lut
deriving DecidableEq, Repr

/-- One access at the block's ports (20_memory.md R50, 30_encoding.md R92), or a pulse of the reset input (R200).
`waitIdle` is the pseudo-instruction `wait` of R92: read STATUS until BUSY reads 0. -/
inductive PortAccess where
  | regWrite (idx : BitVec 5) (v : Word)
  | regRead (idx : BitVec 5)
  | srcWrite (a : BitVec 16) (b : Byte)
  | srcRead (a : BitVec 16)
  | dstWrite (a : BitVec 16) (b : Byte)
  | dstRead (a : BitVec 16)
  | waitIdle
  | extReset
deriving DecidableEq, Repr

/-- Who moves in a step (10_state.md R20): the host makes its next access; the engine takes one engine step, a line
of R122, R141, R171 or R106; or the engine runs the payload token at its token pointer to the token's end (log 1, log 11). -/
inductive Turn where
  | host
  | engineLine
  | engineToken
deriving DecidableEq, Repr

/-- A byte buffer: the bytes written since the last external reset, addresses strictly rising. An address that is not
listed holds no written byte: it reads as a free value (U1, log 5). -/
abbrev Memory := List Host.Cell

/-- The whole machine. -/
structure State where
  /-- SRC_SIZE, 1..65536 (00_scope.md R6; log 4). -/
  srcSize : Nat
  /-- DST_SIZE, 1..65536 (00_scope.md R6; log 4). -/
  dstSize : Nat
  /-- CTRL.OP (R22). -/
  op : BitVec 3
  /-- CTRL.MAP (R22). -/
  map : Bool
  /-- STATUS.BUSY (R23). -/
  busy : Bool
  /-- STATUS.DONE (R23). -/
  done : Bool
  /-- STATUS.ERR (R23). -/
  err : Bool
  /-- STATUS.ERR_CODE (R23). -/
  errCode : BitVec 4
  /-- CELL_COUNT, N (R24). -/
  cellCount : BitVec 16
  /-- SRC_BASE (R25). -/
  srcBase : BitVec 16
  /-- SRC_LEN, L (R26). -/
  srcLen : BitVec 16
  /-- DST_BASE (R27). -/
  dstBase : BitVec 16
  /-- OUT_COUNT (R28). -/
  outCount : BitVec 16
  /-- NIB_COUNT (R29). -/
  nibCount : BitVec 17
  /-- ERR_POS (R30). -/
  errPos : BitVec 17
  /-- LUT_IN (R31). -/
  lutIn : BitVec 4
  /-- LUT_OUT (R32). -/
  lutOut : BitVec 4
  /-- The engine's phase (R40). -/
  phase : Phase
  /-- Encoder: index of the first tile of the current run (R40, 17 bits; log 10). -/
  i : Nat
  /-- Encoder: length of the run being scanned (R40, 5 bits). -/
  r : Nat
  /-- Code of the run being scanned or expanded (R40). -/
  cur : Nibble
  /-- Encoder: nibbles emitted so far (R40, 17 bits). -/
  k : Nat
  /-- Packer: high nibble waiting for its partner (R40). -/
  hold : Nibble
  /-- Packer: true when `hold` is full (R40). -/
  half : Bool
  /-- Packer: bytes written so far (R40, 16 bits). -/
  wb : Nat
  /-- Decoder: the token pointer (R37, R40, 17 bits). -/
  p : Nat
  /-- Decoder: tiles written so far (R40, 17 bits). -/
  out : Nat
  /-- Decoder: tiles of the current run still to write (R40, 5 bits). -/
  reps : Nat
  /-- SRC (R50). -/
  src : Memory
  /-- DST (R50). -/
  dst : Memory
  /-- Model: the accesses still to come at the ports, oldest first (log 2). -/
  inputs : List PortAccess
  /-- Model: who moves in the steps to come, for as many as are listed (log 1). -/
  turns : List Turn
  /-- Model: what the last host read returned (log 2). -/
  readData : Word
  /-- Model: how many free values have been drawn (log 6). -/
  draws : Nat
  /-- Model: how many external resets have happened (log 5). -/
  epoch : Nat
deriving DecidableEq, Repr

/-- The machine right after external reset (70_reset_and_hazards.md R200, R202) at the default buffer sizes: every
register 0, phase IDLE, no buffer byte written. The hidden registers' zeros are a DESIGN CHOICE (U5 allows it; log 9). -/
def State.reset : State where
  srcSize := 65536
  dstSize := 65536
  op := 0
  map := false
  busy := false
  done := false
  err := false
  errCode := 0
  cellCount := 0
  srcBase := 0
  srcLen := 0
  dstBase := 0
  outCount := 0
  nibCount := 0
  errPos := 0
  lutIn := 0
  lutOut := 0
  phase := .idle
  i := 0
  r := 0
  cur := 0
  k := 0
  hold := 0
  half := false
  wb := 0
  p := 0
  out := 0
  reps := 0
  src := []
  dst := []
  inputs := []
  turns := []
  readData := 0
  draws := 0
  epoch := 0

/-- Assertions of the model that the spec says cannot fail. A step from a state of the invariant never raises one
(log 15), so each is safe: the model stops only where the spec says the block never is. -/
inductive Fault where
  /-- The engine would read SRC at `a`, outside the buffer (20_memory.md R53 says it never does). Raised by the engine's reads; safe. -/
  | srcOutside (a : Nat)
  /-- The engine would write DST at `a`, outside the buffer (R53 says it never does). Raised by the engine's writes; safe. -/
  | dstOutside (a : Nat)
  /-- E_LOAD or E_SCAN would convert a byte that is no tile for MAP, though E_VAL has accepted it (40_tile_lut.md R105 gives
  no value there). Raised by the encoder's reads; safe. -/
  | notATile (b : Byte)
  /-- D_RUN would convert a nibble that is no tile code (R105 gives no value there). Raised by the decoder's writes; safe. -/
  | notACode (c : Nibble)
  /-- The encoder's assertion `r ≤ 18` (41_rle_encode.md R131, U6). Raised by E_EMIT; safe. -/
  | runTooLong (r : Nat)
deriving DecidableEq, Repr

/-- Why the model has no meaning for an instruction. -/
inductive Refusal where
  /-- The instruction has no meaning yet. Raised by an arm of exec only; safe. No arm raises it now. -/
  | notModelled (mnemonic : String)
deriving DecidableEq, Repr

/-- What a step, a meaning or an engine line answers. -/
abbrev Result := Host.Outcome State Fault Refusal

end Sys2Proof.Machine
end

