-- ==== Sys2Proof/Machine/Ops.lean ====
section
/-! DEFINITION. The named operations over memory and registers: buffer bytes, windows, free windows, starting a command,
error completion (the block's exception entry) and success completion, and the two resets. -/

namespace Sys2Proof.Machine

/-! ### Sequencing -/

/-- Go on with `f` if `x` answers a next state. -/
def andThen (x : Result) (f : State → Result) : Result :=
  match x with
  | .next s => f s
  | .fault e => .fault e
  | .refused e => .refused e

/-! ### Buffers -/

/-- The byte written at address `a`, if one has been. -/
def Memory.get? : Memory → Nat → Option Byte
  | [], _ => none
  | (x, v) :: rest, a => if x = a then some v else Memory.get? rest a

/-- Byte `b` written at address `a`; addresses stay strictly rising. -/
def Memory.set : Memory → Nat → Byte → Memory
  | [], a, b => [(a, b)]
  | (x, v) :: rest, a, b =>
    if a = x then (a, b) :: rest
    else if a < x then (a, b) :: (x, v) :: rest
    else (x, v) :: Memory.set rest a b

/-- Every address listed lies above `lo` (where there is one) and the addresses strictly rise. -/
def Memory.risesFrom : Option Nat → Memory → Bool
  | _, [] => true
  | none, (x, _) :: rest => Memory.risesFrom (some x) rest
  | some lo, (x, _) :: rest => decide (lo < x) && Memory.risesFrom (some x) rest

/-- The canonical form: strictly rising addresses. (An unlisted address holds no written byte, so no entry can equal it.) -/
def Memory.wf (m : Memory) : Bool := Memory.risesFrom none m

/-- Every address listed lies inside a buffer of `size` bytes. -/
def Memory.within (m : Memory) (size : Nat) : Bool := m.all fun c => decide (c.1 < size)

/-- Every byte of [base, base + len) that lies inside the buffer takes the free value of draw `draw` (U3, U4). -/
def fillWindow (m : Memory) (size draw base : Nat) : Nat → Memory
  | 0 => m
  | len + 1 =>
    let m' := fillWindow m size draw base len
    if base + len < size then m'.set (base + len) (Config.windowByte draw (base + len)) else m'

/-- The byte SRC holds at `a`: the one written last, else the stable free value of an unwritten byte (R51, U1). -/
def State.srcByte (s : State) (a : Nat) : Byte := (s.src.get? a).getD (Config.powerOnSrc s.epoch a)

/-- The byte DST holds at `a` (R51, U1). -/
def State.dstByte (s : State) (a : Nat) : Byte := (s.dst.get? a).getD (Config.powerOnDst s.epoch a)

/-- `MemRead(SRC:a, 1)` (20_memory.md R53): the engine goes on with the byte read. -/
def memRead (s : State) (a : Nat) (use : Byte → Result) : Result :=
  if a < s.srcSize then use (s.srcByte a) else .fault (.srcOutside a)

/-- `MemWrite(DST:a, 1, b)` (20_memory.md R53). -/
def memWrite (a : Nat) (b : Byte) (s : State) : Result :=
  if a < s.dstSize then .next { s with dst := s.dst.set a b } else .fault (.dstOutside a)

/-! ### The command in CTRL.OP and its operands (30_encoding.md R82, R83) -/

/-- The commands OP can select. -/
inductive Command where
  | encode
  | decode
  | lutEnc
  | lutDec
  | reserved
deriving DecidableEq, Repr

/-- OP 000, 001, 010, 011, and 100..111 (R22). -/
def commandOf (op : BitVec 3) : Command :=
  match op.toNat with
  | 0 => .encode
  | 1 => .decode
  | 2 => .lutEnc
  | 3 => .lutDec
  | _ => .reserved

/-- The command CTRL.OP selects. -/
def State.command (s : State) : Command := commandOf s.op

/-- N, the cell count (R24), zero-extended into exact arithmetic (R83). -/
def State.cells (s : State) : Nat := s.cellCount.toNat

/-- L, the payload length in bytes (R26). -/
def State.payloadLen (s : State) : Nat := s.srcLen.toNat

/-- `sb`, the first SRC byte of the command's input (R25). -/
def State.sb (s : State) : Nat := s.srcBase.toNat

/-- `db`, the first DST byte of the command's output (R27). -/
def State.db (s : State) : Nat := s.dstBase.toNat

/-- `ceil(a/2)` (00_scope.md R7). -/
def halfUp (a : Nat) : Nat := (a + 1) / 2

/-- How many bytes the command's input window has, from SRC_BASE (20_memory.md R57). -/
def State.inputLen (s : State) : Nat :=
  match s.command with
  | .encode => s.cells
  | .decode => s.payloadLen
  | .lutEnc => 0
  | .lutDec => 0
  | .reserved => 0

/-- How many bytes the command's output window has, from DST_BASE (20_memory.md R57). -/
def State.outputLen (s : State) : Nat :=
  match s.command with
  | .encode => halfUp s.cells
  | .decode => s.cells
  | .lutEnc => 0
  | .lutDec => 0
  | .reserved => 0

/-- Every byte of the running command's output window becomes UNSPECIFIED: a free value for each (U3, U4). A byte of
the window that is outside the buffer does not exist and is passed over (log 8). -/
def State.windowUnspecified (s : State) : State :=
  { s with dst := fillWindow s.dst s.dstSize s.draws s.db s.outputLen, draws := s.draws + 1 }

/-! ### Starting a command (43_control.md R170) -/

/-- START: the effect of the host write itself. An accepted START clears the results and enters CHECK; while BUSY = 1
the write is ignored entirely (R175). -/
def start (op : BitVec 3) (map : Bool) (s : State) : State :=
  if s.busy then s
  else
    { s with
      op := op
      map := map
      busy := true
      done := false
      err := false
      errCode := 0
      outCount := 0
      nibCount := 0
      errPos := 0
      phase := .check }

/-! ### Completion (60_exceptions.md R180 to R185) -/

/-- The errors with a code (R180). `runTooLong` is reserved and never raised (R131). -/
inductive ErrorName where
  | invalidTileCode
  | payloadLengthMismatch
  | runTooLong
  | dimensionOverflow
  | illegalCommand
deriving DecidableEq, Repr

/-- STATUS.ERR_CODE of each error (R180). -/
def ErrorName.code : ErrorName → BitVec 4
  | .invalidTileCode => 1
  | .payloadLengthMismatch => 2
  | .runTooLong => 3
  | .dimensionOverflow => 4
  | .illegalCommand => 5

/-- A LUT command writes LUT_OUT, 0 at error completion (R32, R183). -/
def State.isLut (s : State) : Bool :=
  match s.command with
  | .encode => false
  | .decode => false
  | .lutEnc => true
  | .lutDec => true
  | .reserved => false

/-- A DECODE past its CHECK step: its output window is UNSPECIFIED after an error (R58, R183, U3). -/
def State.isDecoding (s : State) : Bool :=
  match s.command with
  | .encode => false
  | .decode => decide (s.phase ≠ .check)
  | .lutEnc => false
  | .lutDec => false
  | .reserved => false

/-- The register writes of an error completion (R183). -/
def State.recordError (s : State) (e : ErrorName) (pos : Nat) : State :=
  { s with
    phase := .idle
    busy := false
    done := true
    err := true
    errCode := e.code
    errPos := BitVec.ofNat 17 pos
    outCount := 0
    nibCount := 0
    lutOut := if s.isLut then 0 else s.lutOut }

/-- `raise e(pos)`: error completion (R183), the one way the block takes an error. There is no trap and no return from
one (R187, R188). -/
def raiseError (e : ErrorName) (pos : Nat) (s : State) : State :=
  if s.isDecoding then s.windowUnspecified.recordError e pos else s.recordError e pos

/-- `complete()`: success completion (R182); the result registers are written in the same step by its callers. -/
def complete (s : State) : State :=
  { s with phase := .idle, busy := false, done := true, err := false, errCode := 0 }

/-! ### Resets (70_reset_and_hazards.md R200 to R202) -/

/-- Every register of R21 at its reset value and the phase IDLE. -/
def State.registersReset (s : State) : State :=
  { s with
    op := 0
    map := false
    busy := false
    done := false
    err := false
    errCode := 0
    cellCount := 0
    srcBase := 0
    srcLen := 0
    dstBase := 0
    outCount := 0
    nibCount := 0
    errPos := 0
    lutIn := 0
    lutOut := 0
    phase := .idle }

/-- The hidden registers of R40 hold free values of their widths after a reset (R202, U5; log 9). -/
def State.hiddenUnspecified (s : State) : State :=
  { s with
    i := (Config.hiddenReg s.draws 0).toNat
    r := ((Config.hiddenReg s.draws 1).setWidth 5).toNat
    cur := (Config.hiddenReg s.draws 2).setWidth 4
    k := (Config.hiddenReg s.draws 3).toNat
    hold := (Config.hiddenReg s.draws 4).setWidth 4
    half := (Config.hiddenReg s.draws 5).getLsbD 0
    wb := ((Config.hiddenReg s.draws 6).setWidth 16).toNat
    p := (Config.hiddenReg s.draws 7).toNat
    out := (Config.hiddenReg s.draws 8).toNat
    reps := ((Config.hiddenReg s.draws 9).setWidth 5).toNat
    draws := s.draws + 1 }

/-- Soft reset (43_control.md R172): SRC is kept, and DST outside the window of a command it abandons (U4). -/
def softReset (s : State) : State :=
  if s.busy then s.windowUnspecified.registersReset.hiddenUnspecified
  else s.registersReset.hiddenUnspecified

/-- External reset (R200): as soft reset, and no byte of either buffer is written any more; the bytes are drawn anew (U1).
The part's sizes and the accesses still to come are no state of the block and stay (log 18). -/
def externalReset (s : State) : State :=
  { s.registersReset.hiddenUnspecified with src := [], dst := [], epoch := s.epoch + 1 }

end Sys2Proof.Machine
end

