-- ==== Sys2Proof/Machine/Control.lean ====
section
/-! DEFINITION. Command control (43_control.md): SRST, SETCFG, the reserved commands, and the CHECK line. -/

namespace Sys2Proof.Machine

/-- SRST (R172): accepted at any time, busy or not. -/
def execSrst (s : State) : Result := .next (softReset s)

/-- SETCFG (R173): OP and MAP are stored, nothing starts; ignored while BUSY = 1 (R175). -/
def execSetcfg (op : BitVec 3) (map : Bool) (s : State) : Result :=
  .next (if s.busy then s else { s with op := op, map := map })

/-- The reserved commands are accepted and their CHECK line raises IllegalCommand (R174). -/
def execRsvdOp4 (map : Bool) (s : State) : Result := .next (start 4 map s)
/-- R174. -/
def execRsvdOp5 (map : Bool) (s : State) : Result := .next (start 5 map s)
/-- R174. -/
def execRsvdOp6 (map : Bool) (s : State) : Result := .next (start 6 map s)
/-- R174. -/
def execRsvdOp7 (map : Bool) (s : State) : Result := .next (start 7 map s)

/-- Both windows of R57 lie inside their buffers; the sums are exact (R171). -/
def State.windowsFit (s : State) : Bool :=
  decide (s.sb + s.inputLen ≤ s.srcSize) && decide (s.db + s.outputLen ≤ s.dstSize)

/-- The first engine step of every command (R171). -/
def checkLine (s : State) : Result :=
  match s.command with
  | .encode =>
    if s.windowsFit then .next { s with i := 0, phase := .eVal }
    else .next (raiseError .dimensionOverflow 0 s)
  | .decode =>
    if s.windowsFit then .next { s with p := 0, out := 0, phase := .dHead }
    else .next (raiseError .dimensionOverflow 0 s)
  | .lutEnc => .next { s with phase := .lut }
  | .lutDec => .next { s with phase := .lut }
  | .reserved => .next (raiseError .illegalCommand 0 s)

end Sys2Proof.Machine
end

