-- ==== Sys2Proof/Syntax.lean ====
section
/-! DEFINITION. The instructions: one constructor for each row of spec/opcode_table.json, in the table's order. -/

namespace Sys2Proof

/-- Command words written to CTRL (30_encoding.md R82) and payload tokens (30_encoding.md R86).
A starting command carries CTRL.MAP, which every starting row stores from bit 4 (R82, R170; log 12).
A RUN token carries its count nibble `n`, 0..15, and means `n + 3` tiles (R88). -/
inductive Instr where
  | srst
  | setcfg (op : BitVec 3) (map : Bool)
  | encode (map : Bool)
  | decode (map : Bool)
  | lutEnc (map : Bool)
  | lutDec (map : Bool)
  | rsvdOp4 (map : Bool)
  | rsvdOp5 (map : Bool)
  | rsvdOp6 (map : Bool)
  | rsvdOp7 (map : Bool)
  | litFloor
  | litWall
  | litGoal
  | litBox
  | litBoxGoal
  | runFloor (n : Nat)
  | runWall (n : Nat)
  | runGoal (n : Nat)
  | runBox (n : Nat)
  | runBoxGoal (n : Nat)
  | inv6
  | inv7
  | invA
  | invB
  | invE
  | invF
deriving DecidableEq, Repr

/-- The five tile kinds, in the order of the source's enumeration (40_tile_lut.md R100, R102). -/
inductive Tile where
  | floor
  | wall
  | goal
  | box
  | boxOnGoal
deriving DecidableEq, Repr

end Sys2Proof
end

