-- ==== Sys2Proof/WellFormed.lean ====
section
/-! DEFINITION. Which terms of Instr stand for an encoded instruction: a count is one nibble (30_encoding.md R88). -/

namespace Sys2Proof

/-- A count nibble is 0..15 (30_encoding.md R88: "n the whole count nibble, an unsigned value 0..15"). -/
def countFits (n : Nat) : Bool := decide (n < 16)

/-- Every other field is exactly as wide as its encoding, and every OP value is legal in SETCFG (43_control.md R173). -/
def Instr.wellFormed : Instr → Bool
  | .srst => true
  | .setcfg _ _ => true
  | .encode _ => true
  | .decode _ => true
  | .lutEnc _ => true
  | .lutDec _ => true
  | .rsvdOp4 _ => true
  | .rsvdOp5 _ => true
  | .rsvdOp6 _ => true
  | .rsvdOp7 _ => true
  | .litFloor => true
  | .litWall => true
  | .litGoal => true
  | .litBox => true
  | .litBoxGoal => true
  | .runFloor n => countFits n
  | .runWall n => countFits n
  | .runGoal n => countFits n
  | .runBox n => countFits n
  | .runBoxGoal n => countFits n
  | .inv6 => true
  | .inv7 => true
  | .invA => true
  | .invB => true
  | .invE => true
  | .invF => true

end Sys2Proof
end

