-- ==== Sys2Proof/Decode.lean ====
section
/-! DEFINITION. Nibble order, the decoders of command words and payload tokens, the encoder, and the opcode table. -/

namespace Sys2Proof

/-! ### Nibbles of a byte (20_memory.md R54) -/

/-- `b[7:4]`, the first nibble of a byte. -/
def hiNibble (b : Byte) : Nibble := b.extractLsb' 4 4

/-- `b[3:0]`, the second nibble of a byte. -/
def loNibble (b : Byte) : Nibble := b.extractLsb' 0 4

/-- `{h, l}`: the byte whose first nibble is `h`. -/
def joinNibbles (h l : Nibble) : Byte := h ++ l

/-- "unpack bytes into nibbles (high then low)" (42_rle_decode.md R142). -/
def unpackBytes : List Byte → List Nibble
  | [] => []
  | b :: bs => hiNibble b :: loNibble b :: unpackBytes bs

/-! ### Command words (30_encoding.md R81, R82) -/

/-- OP, bits 3:1 of a command word (R81). -/
def opField (v : Word) : BitVec 3 := v.extractLsb' 1 3

/-- MAP, bit 4 of a command word (R81). -/
def mapField (v : Word) : Bool := v.getLsbD 4

/-- The rows of R82, first match first; reserved bits are not looked at (R84). Whether the block is busy is the
meaning's concern: a busy block ignores every row but SRST. -/
def decodeCommand (v : Word) : Instr :=
  if v.getLsbD 15 then .srst
  else if v.getLsbD 0 then
    match (opField v).toNat with
    | 0 => .encode (mapField v)
    | 1 => .decode (mapField v)
    | 2 => .lutEnc (mapField v)
    | 3 => .lutDec (mapField v)
    | 4 => .rsvdOp4 (mapField v)
    | 5 => .rsvdOp5 (mapField v)
    | 6 => .rsvdOp6 (mapField v)
    | _ => .rsvdOp7 (mapField v)
  else .setcfg (opField v) (mapField v)

/-! ### Payload tokens (30_encoding.md R85, R86, R87) -/

/-- Why a nibble sequence begins with no token. -/
inductive DecodeError where
  /-- There is no nibble at all. -/
  | noHead
  /-- The head is a RUN head and the count nibble is missing (42_rle_decode.md R144). -/
  | missingCount
deriving DecidableEq, Repr

/-- A RUN token takes the next nibble as its count, whatever its value (R88). -/
def withCount (run : Nat → Instr) : List Nibble → Except DecodeError (Instr × List Nibble)
  | [] => .error .missingCount
  | n :: rest => .ok (run n.toNat, rest)

/-- The token at the front of a nibble sequence, and the rest: R86, total over the 16 heads. -/
def decodeToken : List Nibble → Except DecodeError (Instr × List Nibble)
  | [] => .error .noHead
  | h :: rest =>
    match h.toNat with
    | 0x0 => .ok (.litFloor, rest)
    | 0x1 => withCount .runFloor rest
    | 0x2 => .ok (.litWall, rest)
    | 0x3 => withCount .runWall rest
    | 0x4 => .ok (.litGoal, rest)
    | 0x5 => withCount .runGoal rest
    | 0x6 => .ok (.inv6, rest)
    | 0x7 => .ok (.inv7, rest)
    | 0x8 => .ok (.litBox, rest)
    | 0x9 => withCount .runBox rest
    | 0xA => .ok (.invA, rest)
    | 0xB => .ok (.invB, rest)
    | 0xC => .ok (.litBoxGoal, rest)
    | 0xD => withCount .runBoxGoal rest
    | 0xE => .ok (.invE, rest)
    | _ => .ok (.invF, rest)

/-! ### The two encoded forms together (30_encoding.md R80) -/

/-- An encoded instruction: a command word or the nibbles of a token. -/
inductive Encoding where
  | word (v : Word)
  | nibbles (ns : List Nibble)
deriving DecidableEq, Repr

/-- The instruction an encoding begins with, and the nibbles after it. -/
def decode : Encoding → Except DecodeError (Instr × List Nibble)
  | .word v => .ok (decodeCommand v, [])
  | .nibbles ns => decodeToken ns

/-- A command word with START, OP and MAP as given and every reserved bit 0 (R81, R92). -/
def commandWord (op : BitVec 3) (map start : Bool) : Word :=
  (op.setWidth 32 <<< 1) ||| (if map then 0x10#32 else 0#32) ||| (if start then 1#32 else 0#32)

/-- The encoding tables R82 and R86, read the other way. -/
def encode : Instr → Encoding
  | .srst => .word 0x00008000#32
  | .setcfg op map => .word (commandWord op map false)
  | .encode map => .word (commandWord 0 map true)
  | .decode map => .word (commandWord 1 map true)
  | .lutEnc map => .word (commandWord 2 map true)
  | .lutDec map => .word (commandWord 3 map true)
  | .rsvdOp4 map => .word (commandWord 4 map true)
  | .rsvdOp5 map => .word (commandWord 5 map true)
  | .rsvdOp6 map => .word (commandWord 6 map true)
  | .rsvdOp7 map => .word (commandWord 7 map true)
  | .litFloor => .nibbles [0x0#4]
  | .litWall => .nibbles [0x2#4]
  | .litGoal => .nibbles [0x4#4]
  | .litBox => .nibbles [0x8#4]
  | .litBoxGoal => .nibbles [0xC#4]
  | .runFloor n => .nibbles [0x1#4, BitVec.ofNat 4 n]
  | .runWall n => .nibbles [0x3#4, BitVec.ofNat 4 n]
  | .runGoal n => .nibbles [0x5#4, BitVec.ofNat 4 n]
  | .runBox n => .nibbles [0x9#4, BitVec.ofNat 4 n]
  | .runBoxGoal n => .nibbles [0xD#4, BitVec.ofNat 4 n]
  | .inv6 => .nibbles [0x6#4]
  | .inv7 => .nibbles [0x7#4]
  | .invA => .nibbles [0xA#4]
  | .invB => .nibbles [0xB#4]
  | .invE => .nibbles [0xE#4]
  | .invF => .nibbles [0xF#4]

/-! ### spec/opcode_table.json as data (30_encoding.md R80) -/

/-- One row of the table: how many bits its form has, which of them it fixes, and their values. -/
structure OpcodeRow where
  width : Nat
  mask : Word
  pattern : Word
deriving DecidableEq, Repr

/-- "Rows of format CMD32 match a 32-bit command word" (R80). -/
def OpcodeRow.matches (row : OpcodeRow) (v : Word) : Bool := v &&& row.mask == row.pattern

/-- A row of format CMD32, TOK4 or TOK8. -/
def cmd32 (mask pattern : Word) : OpcodeRow := { width := 32, mask := mask, pattern := pattern }
def tok4 (head : Word) : OpcodeRow := { width := 4, mask := 0xF#32, pattern := head }
def tok8 (pattern : Word) : OpcodeRow := { width := 8, mask := 0xF0#32, pattern := pattern }

/-- The row of spec/opcode_table.json each constructor stands for. -/
def Instr.row : Instr → OpcodeRow
  | .srst => cmd32 0x00008000 0x00008000
  | .setcfg _ _ => cmd32 0x00008001 0x00000000
  | .encode _ => cmd32 0x0000800F 0x00000001
  | .decode _ => cmd32 0x0000800F 0x00000003
  | .lutEnc _ => cmd32 0x0000800F 0x00000005
  | .lutDec _ => cmd32 0x0000800F 0x00000007
  | .rsvdOp4 _ => cmd32 0x0000800F 0x00000009
  | .rsvdOp5 _ => cmd32 0x0000800F 0x0000000B
  | .rsvdOp6 _ => cmd32 0x0000800F 0x0000000D
  | .rsvdOp7 _ => cmd32 0x0000800F 0x0000000F
  | .litFloor => tok4 0x0
  | .litWall => tok4 0x2
  | .litGoal => tok4 0x4
  | .litBox => tok4 0x8
  | .litBoxGoal => tok4 0xC
  | .runFloor _ => tok8 0x10
  | .runWall _ => tok8 0x30
  | .runGoal _ => tok8 0x50
  | .runBox _ => tok8 0x90
  | .runBoxGoal _ => tok8 0xD0
  | .inv6 => tok4 0x6
  | .inv7 => tok4 0x7
  | .invA => tok4 0xA
  | .invB => tok4 0xB
  | .invE => tok4 0xE
  | .invF => tok4 0xF

/-- The ten CMD32 rows, in the table's order. -/
def commandRows : List OpcodeRow :=
  [Instr.srst.row, (Instr.setcfg 0 false).row, (Instr.encode false).row, (Instr.decode false).row,
   (Instr.lutEnc false).row, (Instr.lutDec false).row, (Instr.rsvdOp4 false).row, (Instr.rsvdOp5 false).row,
   (Instr.rsvdOp6 false).row, (Instr.rsvdOp7 false).row]

/-- An encoding's bits as the table numbers them: a command word as it is, a head nibble in bits 3:0 (TOK4), the
pair head and count with the head in bits 7:4 (TOK8) (R80). -/
def Encoding.tableBits : Encoding → Word
  | .word v => v
  | .nibbles [h] => h.setWidth 32
  | .nibbles (h :: n :: _) => (joinNibbles h n).setWidth 32
  | .nibbles [] => 0

/-! ### The host's reading of a table word -/

/-- The payload byte that holds a token row's bits `w`: a TOK4 head nibble (`w < 16`) stands in the high nibble, which
is read first, with a zero nibble after it; a TOK8 pair is the byte itself (log 14). -/
def tokenByte (w : Nat) : Byte := BitVec.ofNat 8 (if w < 16 then w * 16 else w)

/-- The instruction the decoder reads from a table row's bits: token rows have at most 8 bits, command rows 32. -/
def decodeTableWord (nbits w : Nat) : Option Instr :=
  if nbits ≤ 8 then
    match decodeToken (unpackBytes [tokenByte w]) with
    | .ok (i, _) => some i
    | .error _ => none
  else some (decodeCommand (BitVec.ofNat 32 w))

end Sys2Proof
end

