-- ==== Sys2Proof/Machine/Operands.lean ====
section
/-! DEFINITION. Operand forms: the tile alphabet and its LUT (40_tile_lut.md), the MAP conversion of tile bytes, and the
nibbles of a payload (42_rle_decode.md R142). -/

namespace Sys2Proof

/-! ### The tile LUT (40_tile_lut.md R100, R102) -/

/-- The five 4-bit tile codes (R100). -/
def Tile.code : Tile → Nibble
  | .floor => 0x0
  | .wall => 0x2
  | .goal => 0x4
  | .box => 0x8
  | .boxOnGoal => 0xC

/-- The tile ids (R102, D5). -/
def Tile.id : Tile → Nibble
  | .floor => 0
  | .wall => 1
  | .goal => 2
  | .box => 3
  | .boxOnGoal => 4

/-- `code_to_tile`: the tile of a valid code (R100). -/
def tileOfCode (c : Nibble) : Option Tile :=
  match c.toNat with
  | 0x0 => some .floor
  | 0x2 => some .wall
  | 0x4 => some .goal
  | 0x8 => some .box
  | 0xC => some .boxOnGoal
  | _ => none

/-- The tile of a valid id (R102). -/
def tileOfId (d : Nibble) : Option Tile :=
  match d.toNat with
  | 0 => some .floor
  | 1 => some .wall
  | 2 => some .goal
  | 3 => some .box
  | 4 => some .boxOnGoal
  | _ => none

/-- `validCode(c)` (R100). -/
def validCode (c : Nibble) : Bool := (tileOfCode c).isSome

/-- `validId(d)` (R102). -/
def validId (d : Nibble) : Bool := (tileOfId d).isSome

/-- `h & 0xE`: a head nibble with its control bit cleared. -/
def terrainCode (h : Nibble) : Nibble := h &&& 0xE

/-- `h[0]`, the control bit of a head nibble (R85). -/
def controlBit (h : Nibble) : Bool := h.getLsbD 0

/-- `terrainValid(h)` (R100). -/
def terrainValid (h : Nibble) : Bool := validCode (terrainCode h)

/-! ### MAP: how one tile stands in one byte (40_tile_lut.md R105) -/

/-- The tile a byte stands for, if `inValid(b, MAP)`. -/
def tileOfByte (map : Bool) (b : Byte) : Option Tile :=
  if hiNibble b = 0 then (if map then tileOfId (loNibble b) else tileOfCode (loNibble b)) else none

/-- `inValid(b, MAP)`. -/
def inValid (map : Bool) (b : Byte) : Bool := (tileOfByte map b).isSome

/-- `outByte(c, MAP)` for the tile of code `c`. -/
def Tile.toByte (map : Bool) (t : Tile) : Byte :=
  if map then joinNibbles 0 t.id else joinNibbles 0 t.code

end Sys2Proof

namespace Sys2Proof.Machine

/-- `inCode(MemRead(SRC:sb + j, 1), m)`: the encoder goes on with the code of input tile `j`. -/
def readTileCode (s : State) (j : Nat) (use : Nibble → Result) : Result :=
  memRead s (s.sb + j) fun b =>
    match tileOfByte s.map b with
    | some t => use t.code
    | none => .fault (.notATile b)

/-- `MemWrite(DST:db + out, 1, outByte(t, m)); out <- out + 1`. -/
def writeTile (t : Tile) (s : State) : Result :=
  andThen (memWrite (s.db + s.out) (t.toByte s.map) s) fun s' => .next { s' with out := s'.out + 1 }

/-- Nibble `q` of a byte: the high one when `q` is even (R142). -/
def nibbleOf (q : Nat) (b : Byte) : Nibble := if q % 2 = 0 then hiNibble b else loNibble b

/-- The SRC address that holds nibble `q` of the payload (10_state.md R37). -/
def State.nibbleAddr (s : State) (q : Nat) : Nat := s.sb + q / 2

/-- The value SRC holds for nibble `q` of the payload. -/
def State.nib (s : State) (q : Nat) : Nibble := nibbleOf q (s.srcByte (s.nibbleAddr q))

/-- `nib(q)` as the engine reads it (R142). -/
def readNibble (s : State) (q : Nat) (use : Nibble → Result) : Result :=
  memRead s (s.nibbleAddr q) fun b => use (nibbleOf q b)

end Sys2Proof.Machine
end

