-- ==== Sys2Proof/Machine/RleDecode.lean ====
section
/-! DEFINITION. DECODE: the decoder's engine lines (42_rle_decode.md R141) and the payload tokens LIT, RUN and invalid
heads (R143, R144). A token's meaning is built from the same pieces as the lines. -/

namespace Sys2Proof.Machine

/-- DECODE: START with OP = 001 (R140); the work is done by the lines and tokens below. -/
def execDecode (map : Bool) (s : State) : Result := .next (start 1 map s)

/-! ### The pieces of R141 -/

/-- D_HEAD on a LIT head of tile `t` (R143). -/
def litHead (t : Tile) (s : State) : Result :=
  andThen (writeTile t s) fun s' => .next { s' with p := s'.p + 1 }

/-- D_HEAD on a RUN head of code `c` (R144). -/
def runHead (c : Nibble) (s : State) : State := { s with cur := c, phase := .dCount }

/-- D_HEAD on a head whose terrain bits are no tile (R143). -/
def invalidHead (s : State) : State := raiseError .invalidTileCode s.p s

/-- D_COUNT, its check that the count nibble is there (R144): the missing nibble is number p + 1 = 2L. -/
def State.countMissing (s : State) : Bool := decide (s.p + 1 = 2 * s.payloadLen)

/-- D_COUNT with the count nibble's value `n` (R141, R144). -/
def runCount (n : Nat) (s : State) : State :=
  if s.out + n + 3 > s.cells then raiseError .payloadLengthMismatch s.p s
  else { s with reps := n + 3, p := s.p + 2, phase := .dRun }

/-- D_RUN (R141): one tile of the run. -/
def dRunLine (s : State) : Result :=
  match tileOfCode s.cur with
  | some t =>
    andThen (writeTile t s) fun s' =>
      .next { s' with reps := s'.reps - 1, phase := if s'.reps - 1 = 0 then .dHead else .dRun }
  | none => .fault (.notACode s.cur)

/-! ### The lines of R141 -/

/-- D_HEAD. -/
def dHeadLine (s : State) : Result :=
  if s.out = s.cells then .next { s with phase := .dTail }
  else if s.p = 2 * s.payloadLen then .next (raiseError .payloadLengthMismatch s.p s)
  else
    readNibble s s.p fun h =>
      match tileOfCode (terrainCode h) with
      | none => .next (invalidHead s)
      | some t => if controlBit h then .next (runHead (terrainCode h) s) else litHead t s

/-- D_COUNT. -/
def dCountLine (s : State) : Result :=
  if s.countMissing then .next (raiseError .payloadLengthMismatch (s.p + 1) s)
  else readNibble s (s.p + 1) fun n => .next (runCount n.toNat s)

/-- D_TAIL (R146): no whole byte of the payload may be unread. -/
def dTailLine (s : State) : Result :=
  if halfUp s.p < s.payloadLen then .next (raiseError .payloadLengthMismatch s.p s)
  else .next (complete { s with outCount := BitVec.ofNat 16 s.out, nibCount := BitVec.ofNat 17 s.p })

/-! ### The tokens -/

/-- `reps` times D_RUN: the rest of a run. -/
def finishRun : Nat → State → Result
  | 0, s => .next s
  | n + 1, s => andThen (dRunLine s) (finishRun n)

/-- A RUN token of tile `t` with count `n`, from its head to its end: D_HEAD, D_COUNT, and D_RUN for each of its
n + 3 tiles unless D_COUNT has raised an error (R144). -/
def runToken (t : Tile) (n : Nat) (s : State) : Result :=
  let s1 := runHead t.code s
  if s1.countMissing then .next (raiseError .payloadLengthMismatch (s1.p + 1) s1)
  else
    let s2 := runCount n s1
    if s2.phase = .dRun then finishRun (n + 3) s2 else .next s2

/-- LIT FLOOR (R143). -/
def execLitFloor (s : State) : Result := litHead .floor s
/-- LIT WALL (R143). -/
def execLitWall (s : State) : Result := litHead .wall s
/-- LIT GOAL (R143). -/
def execLitGoal (s : State) : Result := litHead .goal s
/-- LIT BOX (R143). -/
def execLitBox (s : State) : Result := litHead .box s
/-- LIT BOXGOAL (R143). -/
def execLitBoxGoal (s : State) : Result := litHead .boxOnGoal s

/-- RUN FLOOR (R144). -/
def execRunFloor (n : Nat) (s : State) : Result := runToken .floor n s
/-- RUN WALL (R144). -/
def execRunWall (n : Nat) (s : State) : Result := runToken .wall n s
/-- RUN GOAL (R144). -/
def execRunGoal (n : Nat) (s : State) : Result := runToken .goal n s
/-- RUN BOX (R144). -/
def execRunBox (n : Nat) (s : State) : Result := runToken .box n s
/-- RUN BOXGOAL (R144). -/
def execRunBoxGoal (n : Nat) (s : State) : Result := runToken .boxOnGoal n s

/-- Head 0x6, terrain 011 (R143, U10). -/
def execInv6 (s : State) : Result := .next (invalidHead s)
/-- Head 0x7, terrain 011. -/
def execInv7 (s : State) : Result := .next (invalidHead s)
/-- Head 0xA, terrain 101. -/
def execInvA (s : State) : Result := .next (invalidHead s)
/-- Head 0xB, terrain 101. -/
def execInvB (s : State) : Result := .next (invalidHead s)
/-- Head 0xE, terrain 111. -/
def execInvE (s : State) : Result := .next (invalidHead s)
/-- Head 0xF, terrain 111. -/
def execInvF (s : State) : Result := .next (invalidHead s)

end Sys2Proof.Machine
end

