-- ==== Sys2Proof/Machine/RleEncode.lean ====
section
/-! DEFINITION. ENCODE: the encoder's engine lines and the nibble packer (41_rle_encode.md R121, R122, R128). -/

namespace Sys2Proof.Machine

/-- ENCODE: START with OP = 000 (R121); the work is done by the lines below. -/
def execEncode (map : Bool) (s : State) : Result := .next (start 0 map s)

/-- `push(n)` of the packer (R128). -/
def push (n : Nibble) (s : State) : Result :=
  if s.half then
    andThen (memWrite (s.db + s.wb) (joinNibbles s.hold n) s) fun s' =>
      .next { s' with k := s'.k + 1, wb := s'.wb + 1, half := false }
  else .next { s with k := s.k + 1, hold := n, half := true }

/-- E_VAL (R122): the whole input is validated before the first tile is encoded. -/
def eValLine (s : State) : Result :=
  if s.i = s.cells then
    .next { s with i := 0, k := 0, half := false, wb := 0, phase := if s.cells = 0 then .eFlush else .eLoad }
  else
    memRead s (s.sb + s.i) fun b =>
      if inValid s.map b then .next { s with i := s.i + 1 }
      else .next (raiseError .invalidTileCode s.i s)

/-- E_LOAD (R122). -/
def eLoadLine (s : State) : Result :=
  readTileCode s s.i fun c => .next { s with cur := c, r := 1, phase := .eScan }

/-- E_SCAN (R122): the scan reads a further tile only while one is left and the run is shorter than 18. -/
def eScanLine (s : State) : Result :=
  if s.i + s.r < s.cells ∧ s.r < 18 then
    readTileCode s (s.i + s.r) fun c =>
      if c = s.cur then .next { s with r := s.r + 1 } else .next { s with phase := .eEmit }
  else .next { s with phase := .eEmit }

/-- The end of E_EMIT: on past the `tiles` tiles of the token (R122). -/
def nextRun (tiles : Nat) (s : State) : State :=
  { s with i := s.i + tiles, phase := if s.i + tiles < s.cells then .eLoad else .eFlush }

/-- E_EMIT (R122): one LIT nibble, or a RUN head and its count. The assertion of R131 guards the count. -/
def eEmitLine (s : State) : Result :=
  if s.r < 3 then andThen (push s.cur s) fun s' => .next (nextRun 1 s')
  else if s.r ≤ 18 then
    andThen (push (s.cur ||| 1) s) fun s' =>
      andThen (push (BitVec.ofNat 4 (s.r - 3)) s') fun s'' => .next (nextRun s.r s'')
  else .fault (.runTooLong s.r)

/-- The last byte, its low nibble zero-padded, when one nibble is left (R122, R127). -/
def flushHalf (s : State) : Result :=
  if s.half then
    andThen (memWrite (s.db + s.wb) (joinNibbles s.hold 0) s) fun s' => .next { s' with wb := s'.wb + 1, half := false }
  else .next s

/-- E_FLUSH (R122): OUT_COUNT and NIB_COUNT, and success completion. -/
def eFlushLine (s : State) : Result :=
  andThen (flushHalf s) fun s' =>
    .next (complete { s' with outCount := BitVec.ofNat 16 s'.wb, nibCount := BitVec.ofNat 17 s'.k })

end Sys2Proof.Machine
end

