-- ==== Sys2Proof/Machine/TileLut.lean ====
section
/-! DEFINITION. The LUT commands (40_tile_lut.md R103, R104) and their engine phase (R106). -/

namespace Sys2Proof.Machine

/-- LUT_ENC: START with OP = 010 (R103); its result comes from `lutLine`. -/
def execLutEnc (map : Bool) (s : State) : Result := .next (start 2 map s)

/-- LUT_DEC: START with OP = 011 (R104); its result comes from `lutLine`. -/
def execLutDec (map : Bool) (s : State) : Result := .next (start 3 map s)

/-- A LUT command's end: LUT_OUT is the result, or the error InvalidTileCode at position 0. -/
def finishLut (result : Option Nibble) (s : State) : Result :=
  match result with
  | some v => .next (complete { s with lutOut := v })
  | none => .next (raiseError .invalidTileCode 0 s)

/-- Phase LUT (R106): the whole pseudocode of R103 or R104. No other command is ever in this phase. -/
def lutLine (s : State) : Result :=
  match s.command with
  | .lutEnc => finishLut ((tileOfId s.lutIn).map Tile.code) s
  | .lutDec => finishLut ((tileOfCode s.lutIn).map Tile.id) s
  | .encode => .next s
  | .decode => .next s
  | .reserved => .next s

end Sys2Proof.Machine
end

