-- ==== Sys2Proof/Machine/Dispatch.lean ====
section
/-! DEFINITION. exec: one arm for each constructor of Instr. -/

namespace Sys2Proof.Machine

def exec (i : Instr) (s : State) : Host.Outcome State Fault Refusal :=
  match i with
  | .srst => Sys2Proof.Machine.execSrst s
  | .setcfg op map => Sys2Proof.Machine.execSetcfg op map s
  | .encode map => Sys2Proof.Machine.execEncode map s
  | .decode map => Sys2Proof.Machine.execDecode map s
  | .lutEnc map => Sys2Proof.Machine.execLutEnc map s
  | .lutDec map => Sys2Proof.Machine.execLutDec map s
  | .rsvdOp4 map => Sys2Proof.Machine.execRsvdOp4 map s
  | .rsvdOp5 map => Sys2Proof.Machine.execRsvdOp5 map s
  | .rsvdOp6 map => Sys2Proof.Machine.execRsvdOp6 map s
  | .rsvdOp7 map => Sys2Proof.Machine.execRsvdOp7 map s
  | .litFloor => Sys2Proof.Machine.execLitFloor s
  | .litWall => Sys2Proof.Machine.execLitWall s
  | .litGoal => Sys2Proof.Machine.execLitGoal s
  | .litBox => Sys2Proof.Machine.execLitBox s
  | .litBoxGoal => Sys2Proof.Machine.execLitBoxGoal s
  | .runFloor n => Sys2Proof.Machine.execRunFloor n s
  | .runWall n => Sys2Proof.Machine.execRunWall n s
  | .runGoal n => Sys2Proof.Machine.execRunGoal n s
  | .runBox n => Sys2Proof.Machine.execRunBox n s
  | .runBoxGoal n => Sys2Proof.Machine.execRunBoxGoal n s
  | .inv6 => Sys2Proof.Machine.execInv6 s
  | .inv7 => Sys2Proof.Machine.execInv7 s
  | .invA => Sys2Proof.Machine.execInvA s
  | .invB => Sys2Proof.Machine.execInvB s
  | .invE => Sys2Proof.Machine.execInvE s
  | .invF => Sys2Proof.Machine.execInvF s

end Sys2Proof.Machine
end

