-- ==== Sys2Proof/Machine/Engine.lean ====
section
/-! DEFINITION. One engine step: the line of the current phase (R171, R106, R122, R141; D29). -/

namespace Sys2Proof.Machine

/-- The line of the current phase; in IDLE there is none. -/
def phaseLine (s : State) : Result :=
  match s.phase with
  | .idle => .next s
  | .check => checkLine s
  | .eVal => eValLine s
  | .eLoad => eLoadLine s
  | .eScan => eScanLine s
  | .eEmit => eEmitLine s
  | .eFlush => eFlushLine s
  | .dHead => dHeadLine s
  | .dCount => dCountLine s
  | .dRun => dRunLine s
  | .dTail => dTailLine s
  | .lut => lutLine s

/-- "The engine takes engine steps only while STATUS.BUSY = 1" (10_state.md R20, 60_exceptions.md R195). -/
def engineLine (s : State) : Result := if s.busy then phaseLine s else .next s

end Sys2Proof.Machine
end

