-- ==== Sys2Proof/Machine/Flags.lean ====
section
/-! DEFINITION. The words the host reads: CTRL, STATUS and every other register by index (10_state.md R21 to R33, R35). -/

namespace Sys2Proof.Machine

/-- One flag in its place. -/
def flagAt (pos : Nat) (b : Bool) : Word := if b then 1#32 <<< pos else 0#32

/-- A read of CTRL: `zext_32({MAP, OP, 0})`; START and SRST read 0 (R22). -/
def State.ctrlWord (s : State) : Word := flagAt 4 s.map ||| (s.op.setWidth 32 <<< 1)

/-- A read of STATUS (R23). -/
def State.statusWord (s : State) : Word :=
  flagAt 0 s.busy ||| flagAt 1 s.done ||| flagAt 2 s.err ||| (s.errCode.setWidth 32 <<< 4)

/-- `RegRead(idx)` (R35): reserved bits and reserved indices read 0 (R33). -/
def State.readReg (s : State) (idx : BitVec 5) : Word :=
  match idx.toNat with
  | 0 => s.ctrlWord
  | 1 => s.statusWord
  | 2 => s.cellCount.setWidth 32
  | 3 => s.srcBase.setWidth 32
  | 4 => s.srcLen.setWidth 32
  | 5 => s.dstBase.setWidth 32
  | 6 => s.outCount.setWidth 32
  | 7 => s.nibCount.setWidth 32
  | 8 => s.errPos.setWidth 32
  | 9 => s.lutIn.setWidth 32
  | 10 => s.lutOut.setWidth 32
  | _ => 0

/-- `RegWrite(idx, v)` for an index other than 0 (R34): the five writable registers, and only while BUSY = 0; every
other index ignores the write. Index 0 is CTRL, whose words are the commands (30_encoding.md R82). -/
def writeReg (idx : BitVec 5) (v : Word) (s : State) : State :=
  if s.busy then s
  else
    match idx.toNat with
    | 2 => { s with cellCount := v.setWidth 16 }
    | 3 => { s with srcBase := v.setWidth 16 }
    | 4 => { s with srcLen := v.setWidth 16 }
    | 5 => { s with dstBase := v.setWidth 16 }
    | 9 => { s with lutIn := v.setWidth 4 }
    | _ => s

end Sys2Proof.Machine
end

