-- ==== Sys2Proof/Machine/Ports.lean ====
section
/-! DEFINITION. What arrives at the block's ports (10_state.md R34, R35; 20_memory.md R51, R52), and how the engine fetches a
payload token (42_rle_decode.md R142, R143). -/

namespace Sys2Proof.Machine

/-! ### Host accesses -/

/-- `SrcWrite(a, b)`: lost while BUSY = 1 (R52) and beyond a small buffer (R51). -/
def srcWrite (a : Nat) (b : Byte) (s : State) : State :=
  if s.busy then s else if a < s.srcSize then { s with src := s.src.set a b } else s

/-- `DstWrite(a, b)` (R51, R52). -/
def dstWrite (a : Nat) (b : Byte) (s : State) : State :=
  if s.busy then s else if a < s.dstSize then { s with dst := s.dst.set a b } else s

/-- A host read of a buffer: the byte held, 0x00 beyond a small buffer (R51), a fresh free value while BUSY = 1 (R52, U2). -/
def bufferRead (inside : Bool) (held : Byte) (s : State) : State :=
  if s.busy then { s with readData := (Config.busyRead s.draws).setWidth 32, draws := s.draws + 1 }
  else { s with readData := if inside then held.setWidth 32 else 0 }

/-- `RegWrite(idx, v)` (R34): a write to CTRL is a command word; every command says itself what it does while BUSY = 1. -/
def regWrite (idx : BitVec 5) (v : Word) (s : State) : Result :=
  if idx = 0 then exec (decodeCommand v) s else .next (writeReg idx v s)

/-- One poll of the pseudo-instruction `wait` (R92): read STATUS, and poll again while BUSY reads 1. -/
def pollIdle (s : State) : State :=
  { s with readData := s.statusWord, inputs := if s.busy then .waitIdle :: s.inputs else s.inputs }

/-- One access, already taken from `inputs`. -/
def portAccess (a : PortAccess) (s : State) : Result :=
  match a with
  | .regWrite idx v => regWrite idx v s
  | .regRead idx => .next { s with readData := s.readReg idx }
  | .srcWrite a b => .next (srcWrite a.toNat b s)
  | .srcRead a => .next (bufferRead (decide (a.toNat < s.srcSize)) (s.srcByte a.toNat) s)
  | .dstWrite a b => .next (dstWrite a.toNat b s)
  | .dstRead a => .next (bufferRead (decide (a.toNat < s.dstSize)) (s.dstByte a.toNat) s)
  | .waitIdle => .next (pollIdle s)
  | .extReset => .next (externalReset s)

/-- The host's turn: its next access, in its program order (20_memory.md R62); with none left nothing happens (R60, R200). -/
def hostTurn (s : State) : Result :=
  match s.inputs with
  | [] => .next s
  | a :: rest => portAccess a { s with inputs := rest }

/-! ### Fetching a payload token -/

/-- The nibbles of the payload at the token pointer, as many as one token can have: two, or the last one (R142). -/
def State.tokenNibbles (s : State) : List Nibble :=
  if s.p + 1 < 2 * s.payloadLen then [s.nib s.p, s.nib (s.p + 1)]
  else if s.p < 2 * s.payloadLen then [s.nib s.p]
  else []

/-- The nibbles of `tokenNibbles` stand inside SRC. -/
def State.tokenInside (s : State) : Bool :=
  decide (s.nibbleAddr s.p < s.srcSize) &&
    (decide (s.nibbleAddr (s.p + 1) < s.srcSize) || decide (2 * s.payloadLen ≤ s.p + 1))

/-- The token at the token pointer, read "when out < N and p < 2L" (R143). There is none when the scan is over, when
the payload is, and when a RUN head is its last nibble (R144): those are lines of R141 without a token (log 11). -/
def State.fetchToken (s : State) : Option Instr :=
  if s.busy ∧ s.phase = .dHead ∧ s.out < s.cells ∧ s.tokenInside then
    match decodeToken s.tokenNibbles with
    | .ok (i, _) => some i
    | .error _ => none
  else none

/-- The engine's turn at token granularity: the token fetched is executed whole; with none to fetch, one engine line. -/
def tokenTurn (s : State) : Result :=
  match s.fetchToken with
  | some i => exec i s
  | none => engineLine s

/-- The agent named moves. -/
def runTurn (t : Turn) (s : State) : Result :=
  match t with
  | .host => hostTurn s
  | .engineLine => engineLine s
  | .engineToken => tokenTurn s

/-- Who moves when no turn is listed: a busy engine, so that it always takes its next step (weak fairness, R20, R211);
otherwise the host (log 1). -/
def State.defaultTurn (s : State) : Turn := if s.busy then .engineToken else .host

end Sys2Proof.Machine
end

