-- ==== Sys2Proof/Machine/Step.lean ====
section
/-! DEFINITION. One step: the next turn of `turns`, or the default one. And how an instruction is placed where step fetches it. -/

namespace Sys2Proof.Machine

/-- The next turn, which is then used up (10_state.md R20). -/
def step (s : State) : Host.Outcome State Fault Refusal :=
  match s.turns with
  | [] => runTurn s.defaultTurn s
  | t :: rest => runTurn t { s with turns := rest }

/-- A command word is the host's next access, made in the next step. -/
def State.withCommand (s : State) (v : Word) : State :=
  { s with inputs := .regWrite 0 v :: s.inputs, turns := .host :: s.turns }

/-- A payload byte stands at the front of a DECODE in progress: SRC[0] is the whole payload, no tile has been written, 18
are wanted (the longest run, R88), and the engine is at D_HEAD with the token pointer at 0 (log 3). -/
def State.withPayloadByte (s : State) (b : Byte) : State :=
  { s with
    op := 1
    busy := true
    done := false
    err := false
    errCode := 0
    cellCount := 18
    srcBase := 0
    srcLen := 1
    outCount := 0
    nibCount := 0
    errPos := 0
    phase := .dHead
    p := 0
    out := 0
    src := s.src.set 0 b
    turns := .engineToken :: s.turns }

/-- An instruction's bits, as spec/opcode_table.json numbers them, stored where step fetches its next instruction:
token rows have at most 8 bits, command rows 32 (30_encoding.md R80). -/
def State.withFetchWord (s : State) (nbits w : Nat) : State :=
  if nbits ≤ 8 then s.withPayloadByte (tokenByte w) else s.withCommand (BitVec.ofNat 32 w)

end Sys2Proof.Machine
end

