-- ==== Sys2Proof/Machine/Codec.lean ====
section
/-! DEFINITION. The functional forms of the codec: rleEncode (R124), pack (R127), unpack (R142), rleDecode (R147), and ENCODE
and DECODE as one function of the state each (R121, R140). The machine runs the engine lines; these say what they compute. -/

namespace Sys2Proof

/-- How many of the leading elements of `T` equal `c`, at most `cap`: the inner loop of R124. -/
def scanRun (c : Nibble) : Nat → List Nibble → Nat
  | 0, _ => 0
  | _ + 1, [] => 0
  | cap + 1, x :: T => if x = c then scanRun c cap T + 1 else 0

/-- The outer loop of R124 over what is left of the input; each round takes at least one tile. -/
def rleEncodeRounds : Nat → List Nibble → List Nibble
  | 0, _ => []
  | _ + 1, [] => []
  | rounds + 1, c :: T =>
    let r := scanRun c 17 T + 1
    if r < 3 then c :: rleEncodeRounds rounds T
    else (c ||| 1) :: BitVec.ofNat 4 (r - 3) :: rleEncodeRounds rounds (T.drop (r - 1))

/-- `rleEncode(T)` (R124). -/
def rleEncode (T : List Nibble) : List Nibble := rleEncodeRounds T.length T

/-- `pack(nib)` (R127): an odd last nibble is padded with 0x0. -/
def pack : List Nibble → List Byte
  | [] => []
  | [h] => [joinNibbles h 0]
  | h :: l :: rest => joinNibbles h l :: pack rest

/-- A failure of the decoder: the error and its position. -/
abbrev DecodeFailure := Machine.ErrorName × Nat

/-- The loop of R147 on what is left of the nibbles: `p` nibbles are consumed and the tiles `T` written, in order. It ends
when N tiles are written; each round writes at least one tile. -/
def rleDecodeRounds (N : Nat) : Nat → List Nibble → Nat → List Nibble → Except DecodeFailure (List Nibble × Nat)
  | 0, _, p, T => .ok (T, p)
  | rounds + 1, rest, p, T =>
    if T.length < N then
      match rest with
      | [] => .error (.payloadLengthMismatch, p)
      | h :: rest1 =>
        if terrainValid h then
          if controlBit h then
            match rest1 with
            | [] => .error (.payloadLengthMismatch, p + 1)
            | n :: rest2 =>
              if T.length + n.toNat + 3 > N then .error (.payloadLengthMismatch, p)
              else rleDecodeRounds N rounds rest2 (p + 2) (T ++ List.replicate (n.toNat + 3) (terrainCode h))
          else rleDecodeRounds N rounds rest1 (p + 1) (T ++ [h])
        else .error (.invalidTileCode, p)
    else .ok (T, p)

/-- `rleDecode(nibs, L, N)` (R147). -/
def rleDecode (nibs : List Nibble) (L N : Nat) : Except DecodeFailure (List Nibble × Nat) :=
  match rleDecodeRounds N N nibs 0 [] with
  | .error e => .error e
  | .ok (T, p) => if Machine.halfUp p < L then .error (.payloadLengthMismatch, p) else .ok (T, p)

/-- The tile codes of input bytes, or the index of the least byte that is no tile for MAP (R121, R129). -/
def tileCodes (map : Bool) : Nat → List Byte → Except Nat (List Nibble)
  | _, [] => .ok []
  | j, b :: bs =>
    match tileOfByte map b with
    | none => .error j
    | some t =>
      match tileCodes map (j + 1) bs with
      | .error e => .error e
      | .ok cs => .ok (t.code :: cs)

/-- `outByte(c, m)` (R105); a nibble that is no code never comes from rleDecode and gives its own byte. -/
def outByte (map : Bool) (c : Nibble) : Byte :=
  match tileOfCode c with
  | some t => t.toByte map
  | none => joinNibbles 0 c

end Sys2Proof

namespace Sys2Proof.Machine

/-- The `len` bytes SRC holds from `base`. -/
def State.srcBytes (s : State) (base len : Nat) : List Byte := (List.range len).map fun j => s.srcByte (base + j)

/-- The bytes written one after another from `base`. -/
def storeBytes (m : Memory) (base : Nat) : List Byte → Memory
  | [] => m
  | b :: bs => storeBytes (m.set base b) (base + 1) bs

/-- The window check both commands begin with (R171). -/
def afterCheck (s : State) (work : State → State) : State :=
  if s.windowsFit then work s else raiseError .dimensionOverflow 0 s

/-- ENCODE as one function of the state in which it was started (R121). -/
def encodeFunction (s : State) : State :=
  afterCheck s fun s =>
    match tileCodes s.map 0 (s.srcBytes s.sb s.cells) with
    | .error j => raiseError .invalidTileCode j s
    | .ok T =>
      complete
        { s with
          dst := storeBytes s.dst s.db (pack (rleEncode T))
          outCount := BitVec.ofNat 16 (pack (rleEncode T)).length
          nibCount := BitVec.ofNat 17 (rleEncode T).length }

/-- DECODE as one function of the state in which it was started (R140); an error past the window check leaves the output
window UNSPECIFIED (U3). -/
def decodeFunction (s : State) : State :=
  afterCheck s fun s =>
    match rleDecode (unpackBytes (s.srcBytes s.sb s.payloadLen)) s.payloadLen s.cells with
    | .error (e, pos) => s.windowUnspecified.recordError e pos
    | .ok (T, p) =>
      complete
        { s with
          dst := storeBytes s.dst s.db (T.map (outByte s.map))
          outCount := BitVec.ofNat 16 s.cells
          nibCount := BitVec.ofNat 17 p }

end Sys2Proof.Machine
end

