-- ==== Sys2Proof/Machine/Container.lean ====
section
/-! DEFINITION. The host-side level container (20_memory.md R67 to R73): outside the block (00_scope.md R4), recorded so that host
software can compute the decoder's inputs. Pure functions; no step calls them. -/

namespace Sys2Proof.Machine

/-- TABLE_ENDIAN, the OPEN parameter of R70 (D24). -/
inductive TableEndian where
  | little
  | big
deriving DecidableEq, Repr

/-- The host-side errors (R72), and a decoder error met on the way. -/
inductive HostError where
  | missingPlayerStart
  | dimensionOverflow
  | levelIndexOutOfRange
  | blobCapacityExceeded
  | codec (e : ErrorName) (pos : Nat)
  /-- The blob ends inside the level's header or payload; the source gives such a blob no meaning (log 17). -/
  | blobTruncated
deriving DecidableEq, Repr

/-- A level (R68): its cells in row-major order. -/
structure Level where
  width : Nat
  height : Nat
  playerX : Nat
  playerY : Nat
  cells : List Tile
deriving DecidableEq, Repr

/-- The invariants of R68; the player stands on Floor or Goal. -/
def Level.ok (l : Level) : Bool :=
  decide (1 ≤ l.width) && decide (l.width ≤ 255) && decide (1 ≤ l.height) && decide (l.height ≤ 255) &&
  decide (l.cells.length = l.width * l.height) && decide (l.playerX < l.width) && decide (l.playerY < l.height) &&
  (l.cells[l.playerY * l.width + l.playerX]? == some .floor || l.cells[l.playerY * l.width + l.playerX]? == some .goal)

/-- A level's payload (41_rle_encode.md R124, R127). -/
def Level.payload (l : Level) : List Byte := pack (rleEncode (l.cells.map Tile.code))

/-- The header and the payload after it (R67). A width or height that does not fit its field is DimensionOverflow (R72).
DESIGN CHOICE: so is a payload_len, player_x or player_y that does not fit, for which R72 names no error (log 20). -/
def Level.bytes (l : Level) : Except HostError (List Byte) :=
  if l.width < 256 ∧ l.height < 256 ∧ l.playerX < 256 ∧ l.playerY < 256 ∧ l.payload.length < 65536 then
    .ok ([BitVec.ofNat 8 l.width, BitVec.ofNat 8 l.height, BitVec.ofNat 8 (l.payload.length / 256),
      BitVec.ofNat 8 l.payload.length, BitVec.ofNat 8 l.playerX, BitVec.ofNat 8 l.playerY] ++ l.payload)
  else .error .dimensionOverflow

/-- The blob and the offset table of the levels in order, after `blob` and `table` (R69, R70). The first error met level by
level is the answer, and a level's header is looked at before the blob's length (DESIGN CHOICE, log 20). -/
def buildContainer : List Level → List Byte → List Nat → Except HostError (List Byte × List Nat)
  | [], blob, table => .ok (blob, table)
  | l :: rest, blob, table =>
    match l.bytes with
    | .error e => .error e
    | .ok bs =>
      if (blob ++ bs).length ≤ 65535 then buildContainer rest (blob ++ bs) (table ++ [blob.length])
      else .error .blobCapacityExceeded

/-- One u16 entry of the offset table as two bytes (R70). -/
def tableEntryBytes (e : TableEndian) (offset : Nat) : List Byte :=
  match e with
  | .little => [BitVec.ofNat 8 offset, BitVec.ofNat 8 (offset / 256)]
  | .big => [BitVec.ofNat 8 (offset / 256), BitVec.ofNat 8 offset]

/-- The tiles of a list of tile codes. -/
def tilesOf : List Nibble → Option (List Tile)
  | [] => some []
  | c :: cs =>
    match tileOfCode c, tilesOf cs with
    | some t, some ts => some (t :: ts)
    | _, _ => none

/-- The reader contract (R71): level `index` of the blob. -/
def readLevel (blob : List Byte) (table : List Nat) (index : Nat) : Except HostError Level :=
  match table[index]? with
  | none => .error .levelIndexOutOfRange
  | some h =>
    match blob.drop h with
    | w :: ht :: lenHi :: lenLo :: px :: py :: rest =>
      let n := w.toNat * ht.toNat
      let len := lenHi.toNat * 256 + lenLo.toNat
      if rest.length < len then .error .blobTruncated
      else
        match rleDecode (unpackBytes (rest.take len)) len n with
        | .error (e, pos) => .error (.codec e pos)
        | .ok (T, _) =>
          match tilesOf T with
          | none => .error (.codec .invalidTileCode 0)
          | some cells =>
            .ok { width := w.toNat, height := ht.toNat, playerX := px.toNat, playerY := py.toNat, cells := cells }
    | _ => .error .blobTruncated

end Sys2Proof.Machine
end

