-- ==== Sys2Proof/Safety.lean ====
section
/-! DEFINITION. What a legal state is: the invariant of the machine, in the words the spec's derived rules use (R23, R40, R57,
R133, R145, R148), and when two states look the same to the host. -/

namespace Sys2Proof.Machine

/-- "Only four combinations of (BUSY, DONE, ERR) occur", and "ERR_CODE ≠ 0 exactly when ERR = 1" (10_state.md R23). -/
def StatusLegal (s : State) : Prop :=
  ((s.busy, s.done, s.err) = (false, false, false) ∨ (s.busy, s.done, s.err) = (true, false, false) ∨
    (s.busy, s.done, s.err) = (false, true, false) ∨ (s.busy, s.done, s.err) = (false, true, true)) ∧
  (s.errCode ≠ 0 ↔ s.err = true)

/-- The buffer sizes are legal parameters (00_scope.md R6). -/
def SizesLegal (s : State) : Prop :=
  1 ≤ s.srcSize ∧ s.srcSize ≤ 65536 ∧ 1 ≤ s.dstSize ∧ s.dstSize ≤ 65536

/-- Both buffers are in canonical form and hold nothing outside their sizes. -/
def BuffersLegal (s : State) : Prop :=
  s.src.wf = true ∧ s.src.within s.srcSize = true ∧ s.dst.wf = true ∧ s.dst.within s.dstSize = true

/-- Every hidden counter fits the width R40 gives it: "no counter wraps" (R133, R148). -/
def HiddenFit (s : State) : Prop :=
  s.i < 2 ^ 17 ∧ s.r < 2 ^ 5 ∧ s.k < 2 ^ 17 ∧ s.wb < 2 ^ 16 ∧ s.p < 2 ^ 17 ∧ s.out < 2 ^ 17 ∧ s.reps < 2 ^ 5

/-- The first `n` input bytes are tile bytes for MAP (41_rle_encode.md R129). -/
def InputValid (s : State) (n : Nat) : Prop := ∀ j, j < n → inValid s.map (s.srcByte (s.sb + j)) = true

/-- An ENCODE whose input has been validated: the packer has emitted `k` nibbles, no more than tiles consumed (R130). -/
def Encoding (s : State) : Prop :=
  s.command = .encode ∧ s.windowsFit = true ∧ InputValid s s.cells ∧ 2 * s.wb + s.half.toNat = s.k ∧ s.k ≤ s.i

/-- A run of `r` tiles of code `cur` stands at tile `i` (R122, R131). -/
def RunScanned (s : State) : Prop :=
  1 ≤ s.r ∧ s.r ≤ 18 ∧ s.i + s.r ≤ s.cells ∧
  ∀ j, j < s.r → (tileOfByte s.map (s.srcByte (s.sb + (s.i + j)))).map Tile.code = some s.cur

/-- A DECODE that has passed CHECK: its counters are in range (R145, R148). -/
def Decoding (s : State) : Prop :=
  s.command = .decode ∧ s.windowsFit = true ∧ s.out ≤ s.cells ∧ s.p ≤ 2 * s.payloadLen

/-- What holds in each phase (R122, R123, R141). -/
def PhaseLegal (s : State) : Prop :=
  match s.phase with
  | .idle => True
  | .check => True
  | .eVal => s.command = .encode ∧ s.windowsFit = true ∧ s.i ≤ s.cells ∧ InputValid s s.i
  | .eLoad => Encoding s ∧ s.i < s.cells
  | .eScan => Encoding s ∧ RunScanned s
  | .eEmit => Encoding s ∧ RunScanned s
  | .eFlush => Encoding s ∧ s.i = s.cells
  | .dHead => Decoding s
  | .dCount => Decoding s ∧ s.out < s.cells ∧ s.p < 2 * s.payloadLen ∧ validCode s.cur = true
  | .dRun => Decoding s ∧ 1 ≤ s.reps ∧ s.reps ≤ 18 ∧ s.out + s.reps ≤ s.cells ∧ validCode s.cur = true
  | .dTail => Decoding s ∧ s.out = s.cells
  | .lut => s.isLut = true

/-- The invariant of the machine. -/
structure Inv (s : State) : Prop where
  sizes : SizesLegal s
  buffers : BuffersLegal s
  status : StatusLegal s
  phaseBusy : s.busy = true ↔ s.phase ≠ .idle
  resultsClear : s.busy = true → s.outCount = 0 ∧ s.nibCount = 0 ∧ s.errPos = 0
  hidden : HiddenFit s
  phase : PhaseLegal s

/-- The registers, sizes and model fields: a state without the hidden registers (R40: "a host cannot read or write it"),
the buffers and the order of turns. -/
def State.hostView (s : State) : State :=
  { s with
    phase := .idle, i := 0, r := 0, cur := 0, k := 0, hold := 0, half := false, wb := 0, p := 0, out := 0, reps := 0
    src := [], dst := [], turns := [] }

/-- Two states the host cannot tell apart: the same registers and the same bytes in both buffers. -/
def LooksLike (s t : State) : Prop :=
  s.hostView = t.hostView ∧ (∀ a, s.srcByte a = t.srcByte a) ∧ (∀ a, s.dstByte a = t.dstByte a)

/-- `k` engine lines, one after another (R122, R141; nothing moves but the engine). -/
def engineLines : Nat → State → Result
  | 0, s => .next s
  | k + 1, s => andThen (engineLine s) (engineLines k)

/-- A port access that resets the block: a write of SRST (R172) or the reset input (R200). -/
def PortAccess.resets : PortAccess → Bool
  | .regWrite idx v => decide (idx = 0) && v.getLsbD 15
  | .regRead _ => false
  | .srcWrite _ _ => false
  | .srcRead _ => false
  | .dstWrite _ _ => false
  | .dstRead _ => false
  | .waitIdle => false
  | .extReset => true

end Sys2Proof.Machine
end

