-- ==== Sys2Proof/Certificates/Slice0/Obligations.lean ====
section
/-! DEFINITION. The statements for the provers. Each docstring names the rules of spec/ it formalises. -/

open Sys2Proof Sys2Proof.Machine

/-! ### Encoding -/

/-- R80: every command word is matched by exactly one CMD32 row, and it is the row of the instruction decoded. -/
def Obligations.CommandWordMatchesExactlyOneRow : Prop :=
  ∀ v : Word,
    (commandRows.filter fun row => row.matches v).length = 1 ∧
    (decodeCommand v).row ∈ commandRows ∧ (decodeCommand v).row.matches v = true

/-- R84: "Reserved bits 31:16 and 14:5 are ignored at any value; a write with them set behaves as the same write with
them clear." Two words that agree on bits 15 and 4:0 decode alike, and a write to CTRL does the same with either. -/
def Obligations.ReservedCommandBitsAreIgnored : Prop :=
  ∀ v w : Word, v &&& 0x0000801F = w &&& 0x0000801F →
    decodeCommand v = decodeCommand w ∧ ∀ s : State, regWrite 0 v s = regWrite 0 w s

/-- R80 to R88: decoding an encoded well-formed instruction gives it back. A command word keeps its meaning whatever its
reserved bits hold; a token is decoded whatever nibbles stand after it, and they are left over. -/
def Obligations.DecodeOfEncodeIsTheInstruction : Prop :=
  ∀ i : Instr, i.wellFormed = true →
    (∀ v, encode i = .word v → ∀ w : Word, w &&& 0x0000801F = v → decode (.word w) = .ok (i, [])) ∧
    (∀ ns, encode i = .nibbles ns → ∀ rest, decode (.nibbles (ns ++ rest)) = .ok (i, rest))

/-- R85 to R88: a token decoded from a nibble sequence is well formed, and its encoding is exactly the nibbles it took. -/
def Obligations.EncodeOfDecodedTokenIsWhatWasRead : Prop :=
  ∀ (ns rest : List Nibble) (i : Instr), decodeToken ns = .ok (i, rest) →
    i.wellFormed = true ∧ ∃ used, encode i = .nibbles used ∧ ns = used ++ rest

/-- R86 and R88: the head table, row by row; a RUN head takes the next nibble, whatever it is, as its count. -/
def Obligations.HeadNibbleTable : Prop :=
  ∀ (n : Nibble) (rest : List Nibble),
    decodeToken (0x0 :: n :: rest) = .ok (.litFloor, n :: rest) ∧
    decodeToken (0x1 :: n :: rest) = .ok (.runFloor n.toNat, rest) ∧
    decodeToken (0x2 :: n :: rest) = .ok (.litWall, n :: rest) ∧
    decodeToken (0x3 :: n :: rest) = .ok (.runWall n.toNat, rest) ∧
    decodeToken (0x4 :: n :: rest) = .ok (.litGoal, n :: rest) ∧
    decodeToken (0x5 :: n :: rest) = .ok (.runGoal n.toNat, rest) ∧
    decodeToken (0x6 :: n :: rest) = .ok (.inv6, n :: rest) ∧
    decodeToken (0x7 :: n :: rest) = .ok (.inv7, n :: rest) ∧
    decodeToken (0x8 :: n :: rest) = .ok (.litBox, n :: rest) ∧
    decodeToken (0x9 :: n :: rest) = .ok (.runBox n.toNat, rest) ∧
    decodeToken (0xA :: n :: rest) = .ok (.invA, n :: rest) ∧
    decodeToken (0xB :: n :: rest) = .ok (.invB, n :: rest) ∧
    decodeToken (0xC :: n :: rest) = .ok (.litBoxGoal, n :: rest) ∧
    decodeToken (0xD :: n :: rest) = .ok (.runBoxGoal n.toNat, rest) ∧
    decodeToken (0xE :: n :: rest) = .ok (.invE, n :: rest) ∧
    decodeToken (0xF :: n :: rest) = .ok (.invF, n :: rest)

/-- Words written out from R82, R86 and R92 decode to the instructions they stand for. The clauses for the heads 0xC and 0x7 rest
on the model's reading of a word below 16 as a head in the high nibble of its byte, which R80 does not say (log 14, DEDUCED). -/
def Obligations.WrittenOutWordsDecode : Prop :=
  decodeTableWord 32 0x00008000 = some .srst ∧
  decodeTableWord 32 0x0000000E = some (.setcfg 7 false) ∧
  decodeTableWord 32 0x00000011 = some (.encode true) ∧
  decodeTableWord 32 0x00000003 = some (.decode false) ∧
  decodeTableWord 32 0x00000005 = some (.lutEnc false) ∧
  decodeTableWord 32 0x00000009 = some (.rsvdOp4 false) ∧
  decodeTableWord 8 0xC = some .litBoxGoal ∧
  decodeTableWord 8 0x9F = some (.runBox 15) ∧
  decodeTableWord 8 0x7 = some .inv7

/-! ### A step runs the decoded instruction -/

/-- R34, R82: the step in which the host writes `v` to CTRL runs the command `v` decodes to, on the state with that access
taken from `inputs` and, where a turn was listed, that turn from `turns`. (The queue and the order of turns are the model's
way of holding the host and the interleaving of R20: log 1, log 2.) -/
def Obligations.StepRunsTheCommandWritten : Prop :=
  ∀ (s : State) (v : Word) (rest : List PortAccess), s.inputs = .regWrite 0 v :: rest →
    (s.turns = [] → s.busy = false → step s = exec (decodeCommand v) { s with inputs := rest }) ∧
    (∀ ts, s.turns = .host :: ts →
      step s = exec (decodeCommand v) { s with inputs := rest, turns := ts })

/-- R141 to R144: when a DECODE is at D_HEAD with tiles still to write and nibbles still to read, and its payload lies in
SRC, the engine's turn runs the token that the payload's nibbles at the token pointer decode to. (One token a step is the
model's choice, which D29 allows: log 11.) -/
def Obligations.StepRunsTheTokenFetched : Prop :=
  ∀ (s : State) (i : Instr) (rest : List Nibble),
    s.busy = true → s.phase = .dHead → s.out < s.cells → s.p < 2 * s.payloadLen →
    s.sb + s.payloadLen ≤ s.srcSize → decodeToken s.tokenNibbles = .ok (i, rest) →
    (s.turns = [] → step s = exec i s) ∧
    (∀ ts, s.turns = .engineToken :: ts → step s = exec i { s with turns := ts })

/-- R142, R54, R37: the nibbles the token fetch reads are those of the unpacked payload, high nibble first. -/
def Obligations.FetchedNibblesAreTheUnpackedPayload : Prop :=
  ∀ (s : State) (q : Nat), q < 2 * s.payloadLen →
    (unpackBytes (s.srcBytes s.sb s.payloadLen))[q]? = some (s.nib q)

/-- R20, R195, R200: while BUSY = 0 an engine turn, of one line or of one token, changes nothing, and neither does the host's turn
with no access waiting: only the turn is used up. With no turn listed and no access waiting no step changes anything. (The
list of turns and the queue of accesses are the model's: log 1, log 2.) -/
def Obligations.IdleBlockDoesNothing : Prop :=
  ∀ s : State, s.busy = false →
    (∀ t ts, s.turns = t :: ts → t ≠ .host ∨ s.inputs = [] → step s = .next { s with turns := ts }) ∧
    (s.inputs = [] → s.turns = [] → step s = .next s)

/-! ### Command control -/

/-- The eight starting commands, each with the OP it stores (R82). -/
def Sys2Proof.Machine.startCommands (map : Bool) : List (Instr × BitVec 3) :=
  [(.encode map, 0), (.decode map, 1), (.lutEnc map, 2), (.lutDec map, 3), (.rsvdOp4 map, 4), (.rsvdOp5 map, 5),
    (.rsvdOp6 map, 6), (.rsvdOp7 map, 7)]

/-- R170: an idle block accepts every starting command: OP and MAP are stored, STATUS becomes BUSY alone, the results are
cleared, the phase becomes CHECK, and nothing else changes. A busy block ignores it entirely, and a word with bit 15 set is a
soft reset only. -/
def Obligations.StartCommandsAreAccepted : Prop :=
  (∀ (s : State) (map : Bool), s.busy = false → ∀ x ∈ startCommands map,
    ∃ t, exec x.1 s = .next t ∧ t.statusWord = 0x00000001 ∧
      t = { s with
        op := x.2, map := map, busy := true, done := false, err := false, errCode := 0
        outCount := 0, nibCount := 0, errPos := 0, phase := .check }) ∧
  (∀ (s : State) (map : Bool), s.busy = true → ∀ x ∈ startCommands map, exec x.1 s = .next s) ∧
  (∀ v : Word, v.getLsbD 15 = true → decodeCommand v = .srst) ∧
  (∀ v : Word, v.getLsbD 15 = false → v.getLsbD 0 = true →
    (decodeCommand v, opField v) ∈ startCommands (v.getLsbD 4) ∧ opField v = v.extractLsb' 1 3)

/-- R173: SETCFG stores OP and MAP, reserved OP values too, and changes nothing else. -/
def Obligations.SetcfgStoresOpAndMap : Prop :=
  ∀ (s : State) (op : BitVec 3) (map : Bool), s.busy = false →
    exec (.setcfg op map) s = .next { s with op := op, map := map } ∧
    ∀ v : Word, v.getLsbD 15 = false → v.getLsbD 0 = false →
      regWrite 0 v s = .next { s with op := v.extractLsb' 1 3, map := v.getLsbD 4 }

/-- R172, R201: SRST acts in every state: every register reads 0, the phase is IDLE, SRC is kept, and DST is kept except,
where a command was running, its output window. -/
def Obligations.SoftResetKeepsBuffersAndClearsRegisters : Prop :=
  ∀ s : State, ∃ t, exec .srst s = .next t ∧
    (∀ idx, t.readReg idx = 0) ∧ t.busy = false ∧ t.phase = .idle ∧
    t.src = s.src ∧ t.epoch = s.epoch ∧ (∀ a, t.srcByte a = s.srcByte a) ∧
    (∀ a, s.busy = false ∨ ¬ (s.db ≤ a ∧ a < s.db + s.outputLen) → t.dstByte a = s.dstByte a) ∧
    t.srcSize = s.srcSize ∧ t.dstSize = s.dstSize ∧
    t.inputs = s.inputs ∧ t.turns = s.turns ∧ t.readData = s.readData

/-- R175: while BUSY = 1 every write to CTRL without bit 15 and every write to another register is ignored; SRST acts. -/
def Obligations.OnlySoftResetActsWhileBusy : Prop :=
  ∀ s : State, s.busy = true →
    (∀ v : Word, v.getLsbD 15 = false → regWrite 0 v s = .next s) ∧
    (∀ (idx : BitVec 5) (v : Word), idx ≠ 0 → regWrite idx v s = .next s) ∧
    (∀ v : Word, v.getLsbD 15 = true → ∃ t, regWrite 0 v s = .next t ∧ t.busy = false ∧ t.phase = .idle) ∧
    (∀ (i : Instr) (v : Word), i ≠ .srst → encode i = .word v → exec i s = .next s)

/-- R34: what a host register write does, index by index. -/
def Obligations.HostRegisterWrite : Prop :=
  ∀ (s : State) (idx : BitVec 5) (v : Word),
    (idx = 0 → v.getLsbD 15 = true → regWrite idx v s = .next (softReset s)) ∧
    (s.busy = true → (idx ≠ 0 ∨ v.getLsbD 15 = false) → regWrite idx v s = .next s) ∧
    (s.busy = false →
      (idx = 0 → v.getLsbD 15 = false → v.getLsbD 0 = false →
        regWrite idx v s = .next { s with op := v.extractLsb' 1 3, map := v.getLsbD 4 }) ∧
      (idx = 0 → v.getLsbD 15 = false → v.getLsbD 0 = true →
        regWrite idx v s = .next { s with
          op := v.extractLsb' 1 3, map := v.getLsbD 4, busy := true, done := false, err := false, errCode := 0
          outCount := 0, nibCount := 0, errPos := 0, phase := .check }) ∧
      (idx = 2 → regWrite idx v s = .next { s with cellCount := v.extractLsb' 0 16 }) ∧
      (idx = 3 → regWrite idx v s = .next { s with srcBase := v.extractLsb' 0 16 }) ∧
      (idx = 4 → regWrite idx v s = .next { s with srcLen := v.extractLsb' 0 16 }) ∧
      (idx = 5 → regWrite idx v s = .next { s with dstBase := v.extractLsb' 0 16 }) ∧
      (idx = 9 → regWrite idx v s = .next { s with lutIn := v.extractLsb' 0 4 }) ∧
      (idx ∉ ([0, 2, 3, 4, 5, 9] : List (BitVec 5)) → regWrite idx v s = .next s))

/-- R24 to R27, R31, R33: after a write to a writable register while idle, that register reads the low bits written with the
reserved bits 0, and every other register reads as before. -/
def Obligations.WrittenRegisterReadsBack : Prop :=
  ∀ (s : State) (v : Word), s.busy = false →
    ∀ x ∈ ([(2, 16), (3, 16), (4, 16), (5, 16), (9, 4)] : List (BitVec 5 × Nat)),
      ∃ t, regWrite x.1 v s = .next t ∧ (t.readReg x.1).toNat = v.toNat % 2 ^ x.2 ∧
        ∀ idx, idx ≠ x.1 → t.readReg idx = s.readReg idx

/-- R22, R23, R33, R35: what the registers' fields make of a read; reserved bits and indices read 0. -/
def Obligations.RegisterReadsShowTheFields : Prop :=
  ∀ s : State,
    (s.readReg 0).toNat = 2 * s.op.toNat + 16 * s.map.toNat ∧
    (s.readReg 1).toNat = s.busy.toNat + 2 * s.done.toNat + 4 * s.err.toNat + 16 * s.errCode.toNat ∧
    (s.readReg 6).toNat = s.outCount.toNat ∧ (s.readReg 7).toNat = s.nibCount.toNat ∧
    (s.readReg 8).toNat = s.errPos.toNat ∧ (s.readReg 10).toNat = s.lutOut.toNat ∧
    (∀ idx : BitVec 5, 11 ≤ idx.toNat → s.readReg idx = 0) ∧
    (∀ idx, portAccess (.regRead idx) s = .next { s with readData := s.readReg idx })

/-- R171: the CHECK step of every command. Windows that fit (exact sums) go on to E_VAL or D_HEAD, otherwise DimensionOverflow
with ERR_POS 0; a LUT command goes on to LUT; a reserved OP is IllegalCommand with ERR_POS 0. No byte is written. -/
def Obligations.CheckStepTestsTheWindows : Prop :=
  ∀ s : State, s.busy = true → s.phase = .check →
    (s.op = 0 →
      (s.srcBase.toNat + s.cellCount.toNat ≤ s.srcSize ∧ s.dstBase.toNat + (s.cellCount.toNat + 1) / 2 ≤ s.dstSize →
        engineLine s = .next { s with i := 0, phase := .eVal }) ∧
      (¬ (s.srcBase.toNat + s.cellCount.toNat ≤ s.srcSize ∧
          s.dstBase.toNat + (s.cellCount.toNat + 1) / 2 ≤ s.dstSize) →
        engineLine s = .next { s with
          phase := .idle, busy := false, done := true, err := true, errCode := 4
          errPos := 0, outCount := 0, nibCount := 0 })) ∧
    (s.op = 1 →
      (s.srcBase.toNat + s.srcLen.toNat ≤ s.srcSize ∧ s.dstBase.toNat + s.cellCount.toNat ≤ s.dstSize →
        engineLine s = .next { s with p := 0, out := 0, phase := .dHead }) ∧
      (¬ (s.srcBase.toNat + s.srcLen.toNat ≤ s.srcSize ∧ s.dstBase.toNat + s.cellCount.toNat ≤ s.dstSize) →
        engineLine s = .next { s with
          phase := .idle, busy := false, done := true, err := true, errCode := 4
          errPos := 0, outCount := 0, nibCount := 0 })) ∧
    (s.op = 2 ∨ s.op = 3 → engineLine s = .next { s with phase := .lut }) ∧
    (4 ≤ s.op.toNat →
      engineLine s = .next { s with
        phase := .idle, busy := false, done := true, err := true, errCode := 5
        errPos := 0, outCount := 0, nibCount := 0 })

/-- R174: a START with a reserved OP is accepted, and one engine step later ends with IllegalCommand at position 0; the
buffers, LUT_OUT and everything else are unchanged. -/
def Obligations.ReservedCommandsEndInIllegalCommand : Prop :=
  ∀ (s : State) (map : Bool), s.busy = false → s.turns = [] →
    ∀ x ∈ ([(.rsvdOp4 map, 4), (.rsvdOp5 map, 5), (.rsvdOp6 map, 6), (.rsvdOp7 map, 7)] : List (Instr × BitVec 3)),
      ∃ t u, exec x.1 s = .next t ∧ t.statusWord = 0x00000001 ∧ step t = .next u ∧ u.statusWord = 0x00000056 ∧
        u = { s with
          op := x.2, map := map, busy := false, done := true, err := true, errCode := 5
          outCount := 0, nibCount := 0, errPos := 0, phase := .idle }

/-! ### The tile LUT -/

/-- R103, R106: LUT_ENC takes two engine steps after its START. A tile id 0..4 gives its code and success; every other value of
LUT_IN gives InvalidTileCode, ERR_POS 0 and LUT_OUT 0. No buffer is touched. -/
def Obligations.LutEncGivesTheCode : Prop :=
  ∀ (s : State) (map : Bool), s.busy = false → s.turns = [] →
    ∃ t u, exec (.lutEnc map) s = .next t ∧ Host.Core.run Sys2Proof.core 2 t = .next u ∧
      (s.lutIn.toNat ≤ 4 → u.statusWord = 0x00000002 ∧
        u = { s with
          op := 2, map := map, busy := false, done := true, err := false, errCode := 0, phase := .idle
          outCount := 0, nibCount := 0, errPos := 0
          lutOut := ([0x0, 0x2, 0x4, 0x8, 0xC] : List (BitVec 4)).getD s.lutIn.toNat 0 }) ∧
      (5 ≤ s.lutIn.toNat → u.statusWord = 0x00000016 ∧
        u = { s with
          op := 2, map := map, busy := false, done := true, err := true, errCode := 1, phase := .idle
          outCount := 0, nibCount := 0, errPos := 0, lutOut := 0 })

/-- R104, R106: LUT_DEC takes two engine steps after its START. Each of the five codes gives its tile id and success; every
other nibble, the control bit set or an invalid terrain, gives InvalidTileCode, ERR_POS 0 and LUT_OUT 0. -/
def Obligations.LutDecGivesTheTileId : Prop :=
  ∀ (s : State) (map : Bool), s.busy = false → s.turns = [] →
    ∃ t u, exec (.lutDec map) s = .next t ∧ Host.Core.run Sys2Proof.core 2 t = .next u ∧
      (∀ d : Fin 5, s.lutIn = ([0x0, 0x2, 0x4, 0x8, 0xC] : List (BitVec 4)).getD d.val 0 → u.statusWord = 0x00000002 ∧
        u = { s with
          op := 3, map := map, busy := false, done := true, err := false, errCode := 0, phase := .idle
          outCount := 0, nibCount := 0, errPos := 0, lutOut := BitVec.ofNat 4 d.val }) ∧
      (s.lutIn ∉ ([0x0, 0x2, 0x4, 0x8, 0xC] : List (BitVec 4)) → u.statusWord = 0x00000016 ∧
        u = { s with
          op := 3, map := map, busy := false, done := true, err := true, errCode := 1, phase := .idle
          outCount := 0, nibCount := 0, errPos := 0, lutOut := 0 })

/-- R107: LUT_DEC after LUT_ENC gives the tile id back and LUT_ENC after LUT_DEC the code, whenever the first succeeds, and each
command succeeds for exactly five values of LUT_IN. -/
def Obligations.LutCommandsAreInverse : Prop :=
  (∀ (s : State) (m m' : Bool) (x : Instr × Instr),
    x = (.lutEnc m, .lutDec m') ∨ x = (.lutDec m, .lutEnc m') → s.busy = false → s.turns = [] →
    ∃ t u, exec x.1 s = .next t ∧ Host.Core.run Sys2Proof.core 2 t = .next u ∧
      (u.err = false → ∃ t' u', exec x.2 { u with lutIn := u.lutOut } = .next t' ∧
        Host.Core.run Sys2Proof.core 2 t' = .next u' ∧ u'.err = false ∧ u'.lutOut = s.lutIn)) ∧
  (∀ i : Instr, i = .lutEnc false ∨ i = .lutEnc true ∨ i = .lutDec false ∨ i = .lutDec true →
    ∃ five : List (BitVec 4), five.Nodup ∧ five.length = 5 ∧
      ∀ s : State, s.busy = false → s.turns = [] →
        ∃ t u, exec i s = .next t ∧ Host.Core.run Sys2Proof.core 2 t = .next u ∧ (u.err = false ↔ s.lutIn ∈ five))

/-- R105: how one tile stands in one byte. With MAP = 0 the valid bytes are the five codes, with MAP = 1 the ids 0..4, and each is the
byte of the tile it stands for. -/
def Obligations.TileBytesFollowMap : Prop :=
  (∀ b : Byte, inValid false b = true ↔ b ∈ ([0x00, 0x02, 0x04, 0x08, 0x0C] : List Byte)) ∧
  (∀ b : Byte, inValid true b = true ↔ b.toNat ≤ 4) ∧
  (∀ (m : Bool) (b : Byte) (x : Tile), tileOfByte m b = some x ↔ b = x.toByte m) ∧
  (∀ x : Tile, x.toByte false = x.code.setWidth 8 ∧ x.toByte true = x.id.setWidth 8) ∧
  ([Tile.floor, .wall, .goal, .box, .boxOnGoal].map Tile.code = [0x0, 0x2, 0x4, 0x8, 0xC]) ∧
  ([Tile.floor, .wall, .goal, .box, .boxOnGoal].map Tile.id = [0, 1, 2, 3, 4])

/-! ### Payload tokens -/

/-- R143, R105: a LIT token writes its one tile at DST[DST_BASE + out], as its code or its id by MAP, and moves out and p on by
1. Every other byte of DST and every other field is unchanged. -/
def Obligations.LitTokensWriteOneTile : Prop :=
  ∀ (s : State) (x : Instr × Byte × Byte),
    x ∈ ([(.litFloor, 0x00, 0x00), (.litWall, 0x02, 0x01), (.litGoal, 0x04, 0x02), (.litBox, 0x08, 0x03),
      (.litBoxGoal, 0x0C, 0x04)] : List (Instr × Byte × Byte)) →
    s.db + s.out < s.dstSize →
    ∃ t, exec x.1 s = .next t ∧
      t = { s with dst := t.dst, out := s.out + 1, p := s.p + 1 } ∧
      t.dstByte (s.db + s.out) = (if s.map then x.2.2 else x.2.1) ∧
      ∀ a, a ≠ s.db + s.out → t.dstByte a = s.dstByte a

/-- R144, R88, R105: a RUN token with a count nibble present and room for its n + 3 tiles writes them from
DST[DST_BASE + out], moves out on by n + 3 and p by 2, and leaves the engine at D_HEAD. Every other byte of DST and every
other field is unchanged. -/
def Obligations.RunTokensWriteTheirRun : Prop :=
  ∀ (s : State) (n : Nat) (x : (Nat → Instr) × Byte × Byte),
    x ∈ ([(.runFloor, 0x00, 0x00), (.runWall, 0x02, 0x01), (.runGoal, 0x04, 0x02), (.runBox, 0x08, 0x03),
      (.runBoxGoal, 0x0C, 0x04)] : List ((Nat → Instr) × Byte × Byte)) →
    n < 16 → s.p + 1 < 2 * s.payloadLen → s.out + n + 3 ≤ s.cells → s.db + s.out + n + 3 ≤ s.dstSize →
    ∃ t, exec (x.1 n) s = .next t ∧
      t = { s with
        dst := t.dst, out := s.out + n + 3, p := s.p + 2, cur := t.cur, reps := 0, phase := .dHead } ∧
      t.cur.setWidth 8 = x.2.1 ∧
      (∀ a, s.db + s.out ≤ a → a < s.db + s.out + n + 3 → t.dstByte a = (if s.map then x.2.2 else x.2.1)) ∧
      ∀ a, ¬ (s.db + s.out ≤ a ∧ a < s.db + s.out + n + 3) → t.dstByte a = s.dstByte a

/-- R144, R181: a RUN token of a running DECODE whose count nibble is missing fails at position p + 1, and one that would pass
N at position p; either is PayloadLengthMismatch. Outside the output window no byte changes, and no register but those of the
error completion. -/
def Obligations.RunTokensThatDoNotFitFail : Prop :=
  ∀ (s : State) (n : Nat) (mk : Nat → Instr),
    mk ∈ ([.runFloor, .runWall, .runGoal, .runBox, .runBoxGoal] : List (Nat → Instr)) → n < 16 →
    s.op = 1 → s.phase = .dHead → (s.p + 1 = 2 * s.payloadLen ∨ s.out + n + 3 > s.cells) →
    ∃ t, exec (mk n) s = .next t ∧ t.statusWord = 0x00000026 ∧
      t = { s with
        cur := t.cur, dst := t.dst, draws := t.draws, phase := .idle, busy := false, done := true, err := true, errCode := 2
        outCount := 0, nibCount := 0
        errPos := BitVec.ofNat 17 (if s.p + 1 = 2 * s.payloadLen then s.p + 1 else s.p) } ∧
      ∀ a, ¬ (s.db ≤ a ∧ a < s.db + s.cells) → t.dstByte a = s.dstByte a

/-- R143, R183: each of the six invalid heads ends a running DECODE with InvalidTileCode at the head's index; outside the output
window no byte changes, and no register but those of the error completion. -/
def Obligations.InvalidHeadsEndTheDecode : Prop :=
  ∀ (s : State) (i : Instr), i ∈ ([.inv6, .inv7, .invA, .invB, .invE, .invF] : List Instr) →
    s.op = 1 → s.phase = .dHead →
    ∃ t, exec i s = .next t ∧ t.statusWord = 0x00000016 ∧
      t = { s with
        dst := t.dst, draws := t.draws, phase := .idle, busy := false, done := true, err := true, errCode := 1
        outCount := 0, nibCount := 0, errPos := BitVec.ofNat 17 s.p } ∧
      ∀ a, ¬ (s.db ≤ a ∧ a < s.db + s.cells) → t.dstByte a = s.dstByte a

/-- R141, R120 (D29): a token run in one step is the engine lines of R141 one after another, at most 20 of them, with the same
state at the end. -/
def Obligations.TokenStepIsItsEngineLines : Prop :=
  ∀ (s : State) (i : Instr), Inv s → s.fetchToken = some i →
    ∃ u k, exec i s = .next u ∧ 1 ≤ k ∧ k ≤ 20 ∧ engineLines k s = .next u

/-- R146, R182: D_TAIL. A whole unread byte fails at position p; otherwise OUT_COUNT and NIB_COUNT are written and the command
completes. -/
def Obligations.TailStepChecksUnreadBytes : Prop :=
  ∀ s : State, s.busy = true → s.op = 1 → s.phase = .dTail →
    ((s.p + 1) / 2 < s.payloadLen → ∃ t, engineLine s = .next t ∧ t.statusWord = 0x00000026 ∧
      t.errPos = BitVec.ofNat 17 s.p ∧ t.outCount = 0 ∧ t.nibCount = 0 ∧ t.lutOut = s.lutOut ∧ t.src = s.src ∧
      ∀ a, ¬ (s.db ≤ a ∧ a < s.db + s.cells) → t.dstByte a = s.dstByte a) ∧
    (s.payloadLen ≤ (s.p + 1) / 2 →
      engineLine s = .next { s with
        phase := .idle, busy := false, done := true, err := false, errCode := 0
        outCount := BitVec.ofNat 16 s.out, nibCount := BitVec.ofNat 17 s.p })

/-! ### Completion -/

/-- R183, R180: error completion. STATUS holds the code, DONE and ERR; ERR_POS the position; no result is reported; LUT_OUT is 0
for a LUT command; a DECODE past its CHECK step leaves its output window at free values (UNSPECIFIED, U3; the draw is the
model's form of it, log 7), and nothing else of any buffer changes. -/
def Obligations.ErrorCompletionRecordsTheError : Prop :=
  ∀ (s : State) (e : ErrorName) (pos : Nat),
    (raiseError e pos s).statusWord =
      (match e with
        | .invalidTileCode => 0x16
        | .payloadLengthMismatch => 0x26
        | .runTooLong => 0x36
        | .dimensionOverflow => 0x46
        | .illegalCommand => 0x56) ∧
    raiseError e pos s = { s with
      dst := (raiseError e pos s).dst, draws := (raiseError e pos s).draws
      phase := .idle, busy := false, done := true, err := true, errCode := (raiseError e pos s).errCode
      errPos := BitVec.ofNat 17 pos, outCount := 0, nibCount := 0
      lutOut := if s.op = 2 ∨ s.op = 3 then 0 else s.lutOut } ∧
    (s.op ≠ 1 ∨ s.phase = .check → (raiseError e pos s).dst = s.dst) ∧
    (∀ a, ¬ (s.db ≤ a ∧ a < s.db + s.cells) → (raiseError e pos s).dstByte a = s.dstByte a) ∧
    (s.op = 1 → s.phase ≠ .check → ∀ a, s.db ≤ a → a < s.db + s.cells → a < s.dstSize →
      (raiseError e pos s).dstByte a = Config.windowByte s.draws a)

/-! ### The functional forms -/

/-- R130: no expansion. K ≤ N, with equality exactly when the input has no three equal tiles in a row; a nonempty input gives a
nonempty payload, and the payload fits the output window. -/
def Obligations.EncodingNeverExpands : Prop :=
  ∀ T : List Nibble,
    (rleEncode T).length ≤ T.length ∧
    ((rleEncode T).length = T.length ↔
      ¬ ∃ (j : Nat) (c : Nibble), T[j]? = some c ∧ T[j + 1]? = some c ∧ T[j + 2]? = some c) ∧
    (1 ≤ T.length → 1 ≤ (rleEncode T).length ∧ 1 ≤ (pack (rleEncode T)).length) ∧
    (pack (rleEncode T)).length = ((rleEncode T).length + 1) / 2 ∧
    (pack (rleEncode T)).length ≤ (T.length + 1) / 2

/-- R127, R54: packing. Byte j is nibble 2j, high, and nibble 2j + 1 or the pad 0x0, low; there are ceil(K/2) bytes; unpacking gives
the nibbles back, and the pad after an odd number of them. -/
def Obligations.PackingPutsTheHighNibbleFirst : Prop :=
  ∀ nib : List Nibble,
    (pack nib).length = (nib.length + 1) / 2 ∧
    (∀ (j : Nat) (h : Nibble), nib[2 * j]? = some h →
      (pack nib)[j]? = some (joinNibbles h (nib[2 * j + 1]?.getD 0))) ∧
    unpackBytes (pack nib) = nib ++ (if nib.length % 2 = 1 then [0] else [])

/-- R126, R124: a maximal run of R tiles becomes R / 18 groups of 18 and then the rest, nothing, one or two LITs, or one RUN, and
what follows the run is encoded on its own. -/
def Obligations.LongRunsSplitGreedily : Prop :=
  ∀ (c : Nibble) (R : Nat) (T : List Nibble), T.head? ≠ some c →
    rleEncode (List.replicate R c ++ T) =
      (List.replicate (R / 18) [c ||| 1, 15]).flatten ++
      (if R % 18 < 3 then List.replicate (R % 18) c else [c ||| 1, BitVec.ofNat 4 (R % 18 - 3)]) ++
      rleEncode T

/-- R132: decoding an encoding gives the tiles back, consumes exactly the K nibbles emitted, and accepts the payload's length. -/
def Obligations.DecodeOfEncodedTilesIsTheTiles : Prop :=
  ∀ T : List Nibble, (∀ c ∈ T, validCode c = true) →
    rleDecode (unpackBytes (pack (rleEncode T))) (pack (rleEncode T)).length T.length = .ok (T, (rleEncode T).length)

/-- R145, R147: a successful decode gives exactly N valid tile codes, and its final pointer is 0 for an empty payload and else
2L - 1 or 2L. -/
def Obligations.SuccessfulDecodeHasExactCounts : Prop :=
  ∀ (nibs T : List Nibble) (L N p : Nat), nibs.length = 2 * L → rleDecode nibs L N = .ok (T, p) →
    T.length = N ∧ (∀ c ∈ T, validCode c = true) ∧ p ≤ 2 * L ∧ 2 * L ≤ p + 1 ∧ (L = 0 → p = 0)

/-- R146, R90: a successful decode depends only on the p nibbles it consumed; the pad nibble, in particular, is never read. -/
def Obligations.PadNibbleIsNeverRead : Prop :=
  ∀ (nibs nibs' T : List Nibble) (L N p : Nat), nibs.length = 2 * L → nibs'.length = 2 * L →
    nibs'.take p = nibs.take p → rleDecode nibs L N = .ok (T, p) → rleDecode nibs' L N = .ok (T, p)

/-! ### The commands as a whole -/

/-- R120, R121, R122, R128, R134: from every legal idle state, ENCODE's START is accepted, and within 21N + 3 engine steps the state
machine completes in a state the host cannot tell from the functional form's: the same registers and the same bytes (in the
default order of turns, log 1). -/
def Obligations.EncodeMachineIsItsFunction : Prop :=
  ∀ (s : State) (map : Bool), Inv s → s.busy = false → s.turns = [] →
    ∃ t u k, exec (.encode map) s = .next t ∧ k ≤ 21 * s.cells + 3 ∧
      Host.Core.run Sys2Proof.core k t = .next u ∧ u.busy = false ∧ LooksLike u (encodeFunction t)

/-- R121, R58, R127: an ENCODE whose windows fit and whose input is all tile bytes succeeds: OUT_COUNT is ceil(K/2), NIB_COUNT is K,
DST from DST_BASE holds the packed encoding, and no other byte of DST, and nothing of SRC, has changed (in the default order
of turns, log 1). -/
def Obligations.EncodeWritesThePayload : Prop :=
  ∀ (s : State) (map : Bool) (tiles : List Tile), Inv s → s.busy = false → s.turns = [] →
    s.sb + s.cells ≤ s.srcSize → s.db + (s.cells + 1) / 2 ≤ s.dstSize → tiles.length = s.cells →
    (∀ (j : Nat) (x : Tile), tiles[j]? = some x → s.srcByte (s.sb + j) = x.toByte map) →
    ∃ t u k, exec (.encode map) s = .next t ∧ Host.Core.run Sys2Proof.core k t = .next u ∧
      u.statusWord = 0x00000002 ∧ u.errPos = 0 ∧ u.lutOut = s.lutOut ∧
      u.outCount.toNat = (pack (rleEncode (tiles.map Tile.code))).length ∧
      u.nibCount.toNat = (rleEncode (tiles.map Tile.code)).length ∧
      (∀ (j : Nat) (b : Byte), (pack (rleEncode (tiles.map Tile.code)))[j]? = some b → u.dstByte (s.db + j) = b) ∧
      (∀ a, ¬ (s.db ≤ a ∧ a < s.db + u.outCount.toNat) → u.dstByte a = s.dstByte a) ∧
      (∀ a, u.srcByte a = s.srcByte a)

/-- R129, R58: an ENCODE whose windows fit and some of whose input bytes are no tile bytes fails with InvalidTileCode at the
least index of one, whatever the other bytes hold, and writes no DST byte. -/
def Obligations.EncodeRejectsTheFirstInvalidTile : Prop :=
  ∀ (s : State) (map : Bool) (j : Nat), Inv s → s.busy = false → s.turns = [] →
    s.sb + s.cells ≤ s.srcSize → s.db + (s.cells + 1) / 2 ≤ s.dstSize → j < s.cells →
    inValid map (s.srcByte (s.sb + j)) = false → (∀ l, l < j → inValid map (s.srcByte (s.sb + l)) = true) →
    ∃ t u k, exec (.encode map) s = .next t ∧ Host.Core.run Sys2Proof.core k t = .next u ∧
      u.statusWord = 0x00000016 ∧ u.errPos.toNat = j ∧ u.outCount = 0 ∧ u.nibCount = 0 ∧ u.lutOut = s.lutOut ∧
      (∀ a, u.dstByte a = s.dstByte a) ∧ (∀ a, u.srcByte a = s.srcByte a)

/-- R120, R140, R141, R147, R149: from every legal idle state, DECODE's START is accepted, and within 3N + 4 engine lines the state
machine completes in a state the host cannot tell from the functional form's. The bytes of the output window after an error agree
because both hold the model's free values of one draw (log 7). -/
def Obligations.DecodeMachineIsItsFunction : Prop :=
  ∀ (s : State) (map : Bool), Inv s → s.busy = false → s.turns = [] →
    ∃ t u k, exec (.decode map) s = .next t ∧ k ≤ 3 * s.cells + 4 ∧
      engineLines k t = .next u ∧ u.busy = false ∧ LooksLike u (decodeFunction t)

/-- R140, R58: a DECODE whose windows fit and whose payload decodes to N tiles succeeds: OUT_COUNT is N, NIB_COUNT the nibbles
consumed, DST from DST_BASE holds the tiles, and no other byte of DST, and nothing of SRC, has changed (in the default order
of turns, log 1). -/
def Obligations.DecodeWritesTheTiles : Prop :=
  ∀ (s : State) (map : Bool) (tiles : List Tile) (p : Nat), Inv s → s.busy = false → s.turns = [] →
    s.sb + s.payloadLen ≤ s.srcSize → s.db + s.cells ≤ s.dstSize →
    rleDecode (unpackBytes (s.srcBytes s.sb s.payloadLen)) s.payloadLen s.cells = .ok (tiles.map Tile.code, p) →
    ∃ t u k, exec (.decode map) s = .next t ∧ Host.Core.run Sys2Proof.core k t = .next u ∧
      u.statusWord = 0x00000002 ∧ u.errPos = 0 ∧ u.lutOut = s.lutOut ∧
      u.outCount = s.cellCount ∧ u.nibCount.toNat = p ∧
      (∀ (j : Nat) (x : Tile), tiles[j]? = some x → u.dstByte (s.db + j) = x.toByte map) ∧
      (∀ a, ¬ (s.db ≤ a ∧ a < s.db + s.cells) → u.dstByte a = s.dstByte a) ∧
      (∀ a, u.srcByte a = s.srcByte a)

/-- R132 on the machine: a DECODE whose SRC window holds the packed encoding of `tiles`, with CELL_COUNT their number and SRC_LEN the
payload's length, succeeds, consumes exactly the K nibbles emitted, and writes the tiles ("[derived]" in the spec). -/
def Obligations.DecodeRestoresAnEncodedPayload : Prop :=
  ∀ (s : State) (map : Bool) (tiles : List Tile), Inv s → s.busy = false → s.turns = [] →
    s.sb + s.payloadLen ≤ s.srcSize → s.db + s.cells ≤ s.dstSize →
    s.srcBytes s.sb s.payloadLen = pack (rleEncode (tiles.map Tile.code)) → s.cells = tiles.length →
    ∃ t u k, exec (.decode map) s = .next t ∧ Host.Core.run Sys2Proof.core k t = .next u ∧
      u.statusWord = 0x00000002 ∧ u.outCount = s.cellCount ∧
      u.nibCount.toNat = (rleEncode (tiles.map Tile.code)).length ∧
      ∀ (j : Nat) (x : Tile), tiles[j]? = some x → u.dstByte (s.db + j) = x.toByte map

/-- R177: every running command completes in a bounded number of engine steps, from whatever legal state it has reached. -/
def Obligations.RunningCommandCompletes : Prop :=
  ∀ s : State, Inv s → s.busy = true →
    ∃ u k, k ≤ 21 * s.cells + 4 ∧ engineLines k s = .next u ∧ u.busy = false ∧ u.done = true

/-! ### Invariants -/

/-- R200, R202: the state after reset is legal, every register reads 0 and the engine is IDLE. -/
def Obligations.ResetStateIsLegal : Prop :=
  Inv State.reset ∧ (∀ idx, State.reset.readReg idx = 0) ∧ State.reset.phase = .idle

/-- R23, R30, R57, R123, R133, R145, R148: every step from a legal state, the host's or the engine's, gives a legal state. -/
def Obligations.EveryStepKeepsTheInvariant : Prop :=
  ∀ s t : State, Inv s → step s = .next t → Inv t

/-- R53, R131, R184: no step from a legal state stops: the engine never leaves its buffers, the encoder's assertion never fails,
and every port access and every instruction has its effect. -/
def Obligations.LegalStatesNeverStop : Prop :=
  ∀ s : State, Inv s → ∃ t, step s = .next t

/-- R23: "Only four combinations of (BUSY, DONE, ERR) occur", and "ERR_CODE ≠ 0 exactly when ERR = 1", whatever else holds. -/
def Obligations.StatusKeepsItsFourCombinations : Prop :=
  ∀ s t : State, StatusLegal s → step s = .next t → StatusLegal t

/-- R53, R57, R34: an engine step of a legal state leaves SRC, the part's sizes, LUT_IN and the command's configuration
unchanged, and every DST byte outside the command's output window. -/
def Obligations.EngineWritesOnlyItsOutputWindow : Prop :=
  ∀ s t : State, Inv s → engineLine s = .next t →
    t.src = s.src ∧ t.epoch = s.epoch ∧ t.srcSize = s.srcSize ∧ t.dstSize = s.dstSize ∧ t.lutIn = s.lutIn ∧
    t.op = s.op ∧ t.map = s.map ∧ t.cellCount = s.cellCount ∧ t.srcBase = s.srcBase ∧ t.srcLen = s.srcLen ∧
    t.dstBase = s.dstBase ∧ t.inputs = s.inputs ∧ t.turns = s.turns ∧ t.readData = s.readData ∧
    ∀ a, ¬ (s.db ≤ a ∧ a < s.db + s.outputLen) → t.dstByte a = s.dstByte a

/-- R53, R57: the engine reads no SRC byte outside the command's input window: a legal state with other bytes there takes the same
engine step. -/
def Obligations.EngineReadsOnlyItsInputWindow : Prop :=
  ∀ (s t : State) (m : Memory), Inv s →
    (∀ a, s.sb ≤ a → a < s.sb + s.inputLen → ({ s with src := m } : State).srcByte a = s.srcByte a) →
    engineLine s = .next t → engineLine { s with src := m } = .next { t with src := m }

/-- R52, R34, R35: while a command runs, a host access that is no reset changes nothing of the block: only the data it reads back,
the draw counter, and its own place in the queue; a register read returns the register's current value. -/
def Obligations.HostAccessWhileBusyChangesNothing : Prop :=
  ∀ (s : State) (a : PortAccess) (rest : List PortAccess) (ts : List Turn),
    s.busy = true → s.turns = .host :: ts → s.inputs = a :: rest → a.resets = false →
    ∃ t, step s = .next t ∧
      t = { s with
        turns := ts, inputs := if a = .waitIdle then s.inputs else rest, readData := t.readData, draws := t.draws } ∧
      ∀ idx, a = .regRead idx → t.readData = s.readReg idx

/-! ### Buffers and reset -/

/-- R51: host buffer accesses while idle. A write inside the buffer sets that byte alone, and reading it returns it; a write beyond the
buffer's size has no effect, and a read there returns 0x00. -/
def Obligations.IdleBufferAccess : Prop :=
  ∀ (s : State) (a : BitVec 16) (b : Byte), s.busy = false →
    (a.toNat < s.srcSize →
      (∃ t, portAccess (.srcWrite a b) s = .next t ∧ t = { s with src := t.src } ∧
        ∀ x, t.srcByte x = if x = a.toNat then b else s.srcByte x) ∧
      portAccess (.srcRead a) s = .next { s with readData := (s.srcByte a.toNat).setWidth 32 }) ∧
    (s.srcSize ≤ a.toNat →
      portAccess (.srcWrite a b) s = .next s ∧ portAccess (.srcRead a) s = .next { s with readData := 0 }) ∧
    (a.toNat < s.dstSize →
      (∃ t, portAccess (.dstWrite a b) s = .next t ∧ t = { s with dst := t.dst } ∧
        ∀ x, t.dstByte x = if x = a.toNat then b else s.dstByte x) ∧
      portAccess (.dstRead a) s = .next { s with readData := (s.dstByte a.toNat).setWidth 32 }) ∧
    (s.dstSize ≤ a.toNat →
      portAccess (.dstWrite a b) s = .next s ∧ portAccess (.dstRead a) s = .next { s with readData := 0 })

/-- R200: external reset. Every register reads 0, the phase is IDLE, no byte of SRC or DST is written any more (each reads as a value
drawn for the new epoch), and the part's sizes stay. -/
def Obligations.ExternalResetClearsTheBlock : Prop :=
  ∀ s : State, ∃ t, portAccess .extReset s = .next t ∧
    (∀ idx, t.readReg idx = 0) ∧ t.busy = false ∧ t.phase = .idle ∧
    (∀ a, t.srcByte a = Config.powerOnSrc (s.epoch + 1) a) ∧ (∀ a, t.dstByte a = Config.powerOnDst (s.epoch + 1) a) ∧
    t.srcSize = s.srcSize ∧ t.dstSize = s.dstSize ∧ t.inputs = s.inputs ∧ t.turns = s.turns

/-- Every buffer operation keeps the canonical form: addresses strictly rising (the model's form; log 5). -/
def Obligations.BuffersStayCanonical : Prop :=
  ∀ s t : State, s.src.wf = true → s.dst.wf = true → step s = .next t → t.src.wf = true ∧ t.dst.wf = true

/-! ### The host-side container (outside the block) -/

/-- R69, R70: the offset table of a container holds, for each level, the sum of 6 plus the payload length over the levels before it,
and the blob has at most 65535 bytes. -/
def Obligations.OffsetTableSumsTheLevels : Prop :=
  ∀ (levels : List Level) (blob : List Byte) (table : List Nat), buildContainer levels [] [] = .ok (blob, table) →
    table.length = levels.length ∧ blob.length ≤ 65535 ∧
    ∀ j, j < levels.length → table[j]? = some ((levels.take j).map fun l => 6 + l.payload.length).sum

/-- R67, R71, R132: the reader contract: every level of a container built from legal levels reads back as it was. -/
def Obligations.ContainerReadsBack : Prop :=
  ∀ (levels : List Level) (blob : List Byte) (table : List Nat), (∀ l ∈ levels, l.ok = true) →
    buildContainer levels [] [] = .ok (blob, table) →
    ∀ (j : Nat) (l : Level), levels[j]? = some l → readLevel blob table j = .ok l
end

