-- ==== Sys2Proof/Laws/State.lean ====
section
/-! SUPPORT. One lemma for each field of State under each named update, true by rfl. -/

namespace Sys2Proof.Machine

/-! ### windowUnspecified -/

@[simp] theorem windowUnspecified_srcSize (s : State) : s.windowUnspecified.srcSize = s.srcSize := rfl
@[simp] theorem windowUnspecified_dstSize (s : State) : s.windowUnspecified.dstSize = s.dstSize := rfl
@[simp] theorem windowUnspecified_op (s : State) : s.windowUnspecified.op = s.op := rfl
@[simp] theorem windowUnspecified_map (s : State) : s.windowUnspecified.map = s.map := rfl
@[simp] theorem windowUnspecified_busy (s : State) : s.windowUnspecified.busy = s.busy := rfl
@[simp] theorem windowUnspecified_done (s : State) : s.windowUnspecified.done = s.done := rfl
@[simp] theorem windowUnspecified_err (s : State) : s.windowUnspecified.err = s.err := rfl
@[simp] theorem windowUnspecified_errCode (s : State) : s.windowUnspecified.errCode = s.errCode := rfl
@[simp] theorem windowUnspecified_cellCount (s : State) : s.windowUnspecified.cellCount = s.cellCount := rfl
@[simp] theorem windowUnspecified_srcBase (s : State) : s.windowUnspecified.srcBase = s.srcBase := rfl
@[simp] theorem windowUnspecified_srcLen (s : State) : s.windowUnspecified.srcLen = s.srcLen := rfl
@[simp] theorem windowUnspecified_dstBase (s : State) : s.windowUnspecified.dstBase = s.dstBase := rfl
@[simp] theorem windowUnspecified_outCount (s : State) : s.windowUnspecified.outCount = s.outCount := rfl
@[simp] theorem windowUnspecified_nibCount (s : State) : s.windowUnspecified.nibCount = s.nibCount := rfl
@[simp] theorem windowUnspecified_errPos (s : State) : s.windowUnspecified.errPos = s.errPos := rfl
@[simp] theorem windowUnspecified_lutIn (s : State) : s.windowUnspecified.lutIn = s.lutIn := rfl
@[simp] theorem windowUnspecified_lutOut (s : State) : s.windowUnspecified.lutOut = s.lutOut := rfl
@[simp] theorem windowUnspecified_phase (s : State) : s.windowUnspecified.phase = s.phase := rfl
@[simp] theorem windowUnspecified_i (s : State) : s.windowUnspecified.i = s.i := rfl
@[simp] theorem windowUnspecified_r (s : State) : s.windowUnspecified.r = s.r := rfl
@[simp] theorem windowUnspecified_cur (s : State) : s.windowUnspecified.cur = s.cur := rfl
@[simp] theorem windowUnspecified_k (s : State) : s.windowUnspecified.k = s.k := rfl
@[simp] theorem windowUnspecified_hold (s : State) : s.windowUnspecified.hold = s.hold := rfl
@[simp] theorem windowUnspecified_half (s : State) : s.windowUnspecified.half = s.half := rfl
@[simp] theorem windowUnspecified_wb (s : State) : s.windowUnspecified.wb = s.wb := rfl
@[simp] theorem windowUnspecified_p (s : State) : s.windowUnspecified.p = s.p := rfl
@[simp] theorem windowUnspecified_out (s : State) : s.windowUnspecified.out = s.out := rfl
@[simp] theorem windowUnspecified_reps (s : State) : s.windowUnspecified.reps = s.reps := rfl
@[simp] theorem windowUnspecified_src (s : State) : s.windowUnspecified.src = s.src := rfl
@[simp] theorem windowUnspecified_dst (s : State) : s.windowUnspecified.dst = fillWindow s.dst s.dstSize s.draws s.db s.outputLen := rfl
@[simp] theorem windowUnspecified_inputs (s : State) : s.windowUnspecified.inputs = s.inputs := rfl
@[simp] theorem windowUnspecified_turns (s : State) : s.windowUnspecified.turns = s.turns := rfl
@[simp] theorem windowUnspecified_readData (s : State) : s.windowUnspecified.readData = s.readData := rfl
@[simp] theorem windowUnspecified_draws (s : State) : s.windowUnspecified.draws = s.draws + 1 := rfl
@[simp] theorem windowUnspecified_epoch (s : State) : s.windowUnspecified.epoch = s.epoch := rfl

/-! ### recordError -/

@[simp] theorem recordError_srcSize (s : State) (e : ErrorName) (pos : Nat) : (s.recordError e pos).srcSize = s.srcSize := rfl
@[simp] theorem recordError_dstSize (s : State) (e : ErrorName) (pos : Nat) : (s.recordError e pos).dstSize = s.dstSize := rfl
@[simp] theorem recordError_op (s : State) (e : ErrorName) (pos : Nat) : (s.recordError e pos).op = s.op := rfl
@[simp] theorem recordError_map (s : State) (e : ErrorName) (pos : Nat) : (s.recordError e pos).map = s.map := rfl
@[simp] theorem recordError_busy (s : State) (e : ErrorName) (pos : Nat) : (s.recordError e pos).busy = false := rfl
@[simp] theorem recordError_done (s : State) (e : ErrorName) (pos : Nat) : (s.recordError e pos).done = true := rfl
@[simp] theorem recordError_err (s : State) (e : ErrorName) (pos : Nat) : (s.recordError e pos).err = true := rfl
@[simp] theorem recordError_errCode (s : State) (e : ErrorName) (pos : Nat) : (s.recordError e pos).errCode = e.code := rfl
@[simp] theorem recordError_cellCount (s : State) (e : ErrorName) (pos : Nat) : (s.recordError e pos).cellCount = s.cellCount := rfl
@[simp] theorem recordError_srcBase (s : State) (e : ErrorName) (pos : Nat) : (s.recordError e pos).srcBase = s.srcBase := rfl
@[simp] theorem recordError_srcLen (s : State) (e : ErrorName) (pos : Nat) : (s.recordError e pos).srcLen = s.srcLen := rfl
@[simp] theorem recordError_dstBase (s : State) (e : ErrorName) (pos : Nat) : (s.recordError e pos).dstBase = s.dstBase := rfl
@[simp] theorem recordError_outCount (s : State) (e : ErrorName) (pos : Nat) : (s.recordError e pos).outCount = 0 := rfl
@[simp] theorem recordError_nibCount (s : State) (e : ErrorName) (pos : Nat) : (s.recordError e pos).nibCount = 0 := rfl
@[simp] theorem recordError_errPos (s : State) (e : ErrorName) (pos : Nat) : (s.recordError e pos).errPos = BitVec.ofNat 17 pos := rfl
@[simp] theorem recordError_lutIn (s : State) (e : ErrorName) (pos : Nat) : (s.recordError e pos).lutIn = s.lutIn := rfl
@[simp] theorem recordError_lutOut (s : State) (e : ErrorName) (pos : Nat) : (s.recordError e pos).lutOut = if s.isLut then 0 else s.lutOut := rfl
@[simp] theorem recordError_phase (s : State) (e : ErrorName) (pos : Nat) : (s.recordError e pos).phase = .idle := rfl
@[simp] theorem recordError_i (s : State) (e : ErrorName) (pos : Nat) : (s.recordError e pos).i = s.i := rfl
@[simp] theorem recordError_r (s : State) (e : ErrorName) (pos : Nat) : (s.recordError e pos).r = s.r := rfl
@[simp] theorem recordError_cur (s : State) (e : ErrorName) (pos : Nat) : (s.recordError e pos).cur = s.cur := rfl
@[simp] theorem recordError_k (s : State) (e : ErrorName) (pos : Nat) : (s.recordError e pos).k = s.k := rfl
@[simp] theorem recordError_hold (s : State) (e : ErrorName) (pos : Nat) : (s.recordError e pos).hold = s.hold := rfl
@[simp] theorem recordError_half (s : State) (e : ErrorName) (pos : Nat) : (s.recordError e pos).half = s.half := rfl
@[simp] theorem recordError_wb (s : State) (e : ErrorName) (pos : Nat) : (s.recordError e pos).wb = s.wb := rfl
@[simp] theorem recordError_p (s : State) (e : ErrorName) (pos : Nat) : (s.recordError e pos).p = s.p := rfl
@[simp] theorem recordError_out (s : State) (e : ErrorName) (pos : Nat) : (s.recordError e pos).out = s.out := rfl
@[simp] theorem recordError_reps (s : State) (e : ErrorName) (pos : Nat) : (s.recordError e pos).reps = s.reps := rfl
@[simp] theorem recordError_src (s : State) (e : ErrorName) (pos : Nat) : (s.recordError e pos).src = s.src := rfl
@[simp] theorem recordError_dst (s : State) (e : ErrorName) (pos : Nat) : (s.recordError e pos).dst = s.dst := rfl
@[simp] theorem recordError_inputs (s : State) (e : ErrorName) (pos : Nat) : (s.recordError e pos).inputs = s.inputs := rfl
@[simp] theorem recordError_turns (s : State) (e : ErrorName) (pos : Nat) : (s.recordError e pos).turns = s.turns := rfl
@[simp] theorem recordError_readData (s : State) (e : ErrorName) (pos : Nat) : (s.recordError e pos).readData = s.readData := rfl
@[simp] theorem recordError_draws (s : State) (e : ErrorName) (pos : Nat) : (s.recordError e pos).draws = s.draws := rfl
@[simp] theorem recordError_epoch (s : State) (e : ErrorName) (pos : Nat) : (s.recordError e pos).epoch = s.epoch := rfl

/-! ### complete -/

@[simp] theorem complete_srcSize (s : State) : (complete s).srcSize = s.srcSize := rfl
@[simp] theorem complete_dstSize (s : State) : (complete s).dstSize = s.dstSize := rfl
@[simp] theorem complete_op (s : State) : (complete s).op = s.op := rfl
@[simp] theorem complete_map (s : State) : (complete s).map = s.map := rfl
@[simp] theorem complete_busy (s : State) : (complete s).busy = false := rfl
@[simp] theorem complete_done (s : State) : (complete s).done = true := rfl
@[simp] theorem complete_err (s : State) : (complete s).err = false := rfl
@[simp] theorem complete_errCode (s : State) : (complete s).errCode = 0 := rfl
@[simp] theorem complete_cellCount (s : State) : (complete s).cellCount = s.cellCount := rfl
@[simp] theorem complete_srcBase (s : State) : (complete s).srcBase = s.srcBase := rfl
@[simp] theorem complete_srcLen (s : State) : (complete s).srcLen = s.srcLen := rfl
@[simp] theorem complete_dstBase (s : State) : (complete s).dstBase = s.dstBase := rfl
@[simp] theorem complete_outCount (s : State) : (complete s).outCount = s.outCount := rfl
@[simp] theorem complete_nibCount (s : State) : (complete s).nibCount = s.nibCount := rfl
@[simp] theorem complete_errPos (s : State) : (complete s).errPos = s.errPos := rfl
@[simp] theorem complete_lutIn (s : State) : (complete s).lutIn = s.lutIn := rfl
@[simp] theorem complete_lutOut (s : State) : (complete s).lutOut = s.lutOut := rfl
@[simp] theorem complete_phase (s : State) : (complete s).phase = .idle := rfl
@[simp] theorem complete_i (s : State) : (complete s).i = s.i := rfl
@[simp] theorem complete_r (s : State) : (complete s).r = s.r := rfl
@[simp] theorem complete_cur (s : State) : (complete s).cur = s.cur := rfl
@[simp] theorem complete_k (s : State) : (complete s).k = s.k := rfl
@[simp] theorem complete_hold (s : State) : (complete s).hold = s.hold := rfl
@[simp] theorem complete_half (s : State) : (complete s).half = s.half := rfl
@[simp] theorem complete_wb (s : State) : (complete s).wb = s.wb := rfl
@[simp] theorem complete_p (s : State) : (complete s).p = s.p := rfl
@[simp] theorem complete_out (s : State) : (complete s).out = s.out := rfl
@[simp] theorem complete_reps (s : State) : (complete s).reps = s.reps := rfl
@[simp] theorem complete_src (s : State) : (complete s).src = s.src := rfl
@[simp] theorem complete_dst (s : State) : (complete s).dst = s.dst := rfl
@[simp] theorem complete_inputs (s : State) : (complete s).inputs = s.inputs := rfl
@[simp] theorem complete_turns (s : State) : (complete s).turns = s.turns := rfl
@[simp] theorem complete_readData (s : State) : (complete s).readData = s.readData := rfl
@[simp] theorem complete_draws (s : State) : (complete s).draws = s.draws := rfl
@[simp] theorem complete_epoch (s : State) : (complete s).epoch = s.epoch := rfl

/-! ### registersReset -/

@[simp] theorem registersReset_srcSize (s : State) : s.registersReset.srcSize = s.srcSize := rfl
@[simp] theorem registersReset_dstSize (s : State) : s.registersReset.dstSize = s.dstSize := rfl
@[simp] theorem registersReset_op (s : State) : s.registersReset.op = 0 := rfl
@[simp] theorem registersReset_map (s : State) : s.registersReset.map = false := rfl
@[simp] theorem registersReset_busy (s : State) : s.registersReset.busy = false := rfl
@[simp] theorem registersReset_done (s : State) : s.registersReset.done = false := rfl
@[simp] theorem registersReset_err (s : State) : s.registersReset.err = false := rfl
@[simp] theorem registersReset_errCode (s : State) : s.registersReset.errCode = 0 := rfl
@[simp] theorem registersReset_cellCount (s : State) : s.registersReset.cellCount = 0 := rfl
@[simp] theorem registersReset_srcBase (s : State) : s.registersReset.srcBase = 0 := rfl
@[simp] theorem registersReset_srcLen (s : State) : s.registersReset.srcLen = 0 := rfl
@[simp] theorem registersReset_dstBase (s : State) : s.registersReset.dstBase = 0 := rfl
@[simp] theorem registersReset_outCount (s : State) : s.registersReset.outCount = 0 := rfl
@[simp] theorem registersReset_nibCount (s : State) : s.registersReset.nibCount = 0 := rfl
@[simp] theorem registersReset_errPos (s : State) : s.registersReset.errPos = 0 := rfl
@[simp] theorem registersReset_lutIn (s : State) : s.registersReset.lutIn = 0 := rfl
@[simp] theorem registersReset_lutOut (s : State) : s.registersReset.lutOut = 0 := rfl
@[simp] theorem registersReset_phase (s : State) : s.registersReset.phase = .idle := rfl
@[simp] theorem registersReset_i (s : State) : s.registersReset.i = s.i := rfl
@[simp] theorem registersReset_r (s : State) : s.registersReset.r = s.r := rfl
@[simp] theorem registersReset_cur (s : State) : s.registersReset.cur = s.cur := rfl
@[simp] theorem registersReset_k (s : State) : s.registersReset.k = s.k := rfl
@[simp] theorem registersReset_hold (s : State) : s.registersReset.hold = s.hold := rfl
@[simp] theorem registersReset_half (s : State) : s.registersReset.half = s.half := rfl
@[simp] theorem registersReset_wb (s : State) : s.registersReset.wb = s.wb := rfl
@[simp] theorem registersReset_p (s : State) : s.registersReset.p = s.p := rfl
@[simp] theorem registersReset_out (s : State) : s.registersReset.out = s.out := rfl
@[simp] theorem registersReset_reps (s : State) : s.registersReset.reps = s.reps := rfl
@[simp] theorem registersReset_src (s : State) : s.registersReset.src = s.src := rfl
@[simp] theorem registersReset_dst (s : State) : s.registersReset.dst = s.dst := rfl
@[simp] theorem registersReset_inputs (s : State) : s.registersReset.inputs = s.inputs := rfl
@[simp] theorem registersReset_turns (s : State) : s.registersReset.turns = s.turns := rfl
@[simp] theorem registersReset_readData (s : State) : s.registersReset.readData = s.readData := rfl
@[simp] theorem registersReset_draws (s : State) : s.registersReset.draws = s.draws := rfl
@[simp] theorem registersReset_epoch (s : State) : s.registersReset.epoch = s.epoch := rfl

/-! ### hiddenUnspecified -/

@[simp] theorem hiddenUnspecified_srcSize (s : State) : s.hiddenUnspecified.srcSize = s.srcSize := rfl
@[simp] theorem hiddenUnspecified_dstSize (s : State) : s.hiddenUnspecified.dstSize = s.dstSize := rfl
@[simp] theorem hiddenUnspecified_op (s : State) : s.hiddenUnspecified.op = s.op := rfl
@[simp] theorem hiddenUnspecified_map (s : State) : s.hiddenUnspecified.map = s.map := rfl
@[simp] theorem hiddenUnspecified_busy (s : State) : s.hiddenUnspecified.busy = s.busy := rfl
@[simp] theorem hiddenUnspecified_done (s : State) : s.hiddenUnspecified.done = s.done := rfl
@[simp] theorem hiddenUnspecified_err (s : State) : s.hiddenUnspecified.err = s.err := rfl
@[simp] theorem hiddenUnspecified_errCode (s : State) : s.hiddenUnspecified.errCode = s.errCode := rfl
@[simp] theorem hiddenUnspecified_cellCount (s : State) : s.hiddenUnspecified.cellCount = s.cellCount := rfl
@[simp] theorem hiddenUnspecified_srcBase (s : State) : s.hiddenUnspecified.srcBase = s.srcBase := rfl
@[simp] theorem hiddenUnspecified_srcLen (s : State) : s.hiddenUnspecified.srcLen = s.srcLen := rfl
@[simp] theorem hiddenUnspecified_dstBase (s : State) : s.hiddenUnspecified.dstBase = s.dstBase := rfl
@[simp] theorem hiddenUnspecified_outCount (s : State) : s.hiddenUnspecified.outCount = s.outCount := rfl
@[simp] theorem hiddenUnspecified_nibCount (s : State) : s.hiddenUnspecified.nibCount = s.nibCount := rfl
@[simp] theorem hiddenUnspecified_errPos (s : State) : s.hiddenUnspecified.errPos = s.errPos := rfl
@[simp] theorem hiddenUnspecified_lutIn (s : State) : s.hiddenUnspecified.lutIn = s.lutIn := rfl
@[simp] theorem hiddenUnspecified_lutOut (s : State) : s.hiddenUnspecified.lutOut = s.lutOut := rfl
@[simp] theorem hiddenUnspecified_phase (s : State) : s.hiddenUnspecified.phase = s.phase := rfl
@[simp] theorem hiddenUnspecified_i (s : State) : s.hiddenUnspecified.i = (Config.hiddenReg s.draws 0).toNat := rfl
@[simp] theorem hiddenUnspecified_r (s : State) : s.hiddenUnspecified.r = ((Config.hiddenReg s.draws 1).setWidth 5).toNat := rfl
@[simp] theorem hiddenUnspecified_cur (s : State) : s.hiddenUnspecified.cur = (Config.hiddenReg s.draws 2).setWidth 4 := rfl
@[simp] theorem hiddenUnspecified_k (s : State) : s.hiddenUnspecified.k = (Config.hiddenReg s.draws 3).toNat := rfl
@[simp] theorem hiddenUnspecified_hold (s : State) : s.hiddenUnspecified.hold = (Config.hiddenReg s.draws 4).setWidth 4 := rfl
@[simp] theorem hiddenUnspecified_half (s : State) : s.hiddenUnspecified.half = (Config.hiddenReg s.draws 5).getLsbD 0 := rfl
@[simp] theorem hiddenUnspecified_wb (s : State) : s.hiddenUnspecified.wb = ((Config.hiddenReg s.draws 6).setWidth 16).toNat := rfl
@[simp] theorem hiddenUnspecified_p (s : State) : s.hiddenUnspecified.p = (Config.hiddenReg s.draws 7).toNat := rfl
@[simp] theorem hiddenUnspecified_out (s : State) : s.hiddenUnspecified.out = (Config.hiddenReg s.draws 8).toNat := rfl
@[simp] theorem hiddenUnspecified_reps (s : State) : s.hiddenUnspecified.reps = ((Config.hiddenReg s.draws 9).setWidth 5).toNat := rfl
@[simp] theorem hiddenUnspecified_src (s : State) : s.hiddenUnspecified.src = s.src := rfl
@[simp] theorem hiddenUnspecified_dst (s : State) : s.hiddenUnspecified.dst = s.dst := rfl
@[simp] theorem hiddenUnspecified_inputs (s : State) : s.hiddenUnspecified.inputs = s.inputs := rfl
@[simp] theorem hiddenUnspecified_turns (s : State) : s.hiddenUnspecified.turns = s.turns := rfl
@[simp] theorem hiddenUnspecified_readData (s : State) : s.hiddenUnspecified.readData = s.readData := rfl
@[simp] theorem hiddenUnspecified_draws (s : State) : s.hiddenUnspecified.draws = s.draws + 1 := rfl
@[simp] theorem hiddenUnspecified_epoch (s : State) : s.hiddenUnspecified.epoch = s.epoch := rfl

/-! ### runHead -/

@[simp] theorem runHead_srcSize (c : Nibble) (s : State) : (runHead c s).srcSize = s.srcSize := rfl
@[simp] theorem runHead_dstSize (c : Nibble) (s : State) : (runHead c s).dstSize = s.dstSize := rfl
@[simp] theorem runHead_op (c : Nibble) (s : State) : (runHead c s).op = s.op := rfl
@[simp] theorem runHead_map (c : Nibble) (s : State) : (runHead c s).map = s.map := rfl
@[simp] theorem runHead_busy (c : Nibble) (s : State) : (runHead c s).busy = s.busy := rfl
@[simp] theorem runHead_done (c : Nibble) (s : State) : (runHead c s).done = s.done := rfl
@[simp] theorem runHead_err (c : Nibble) (s : State) : (runHead c s).err = s.err := rfl
@[simp] theorem runHead_errCode (c : Nibble) (s : State) : (runHead c s).errCode = s.errCode := rfl
@[simp] theorem runHead_cellCount (c : Nibble) (s : State) : (runHead c s).cellCount = s.cellCount := rfl
@[simp] theorem runHead_srcBase (c : Nibble) (s : State) : (runHead c s).srcBase = s.srcBase := rfl
@[simp] theorem runHead_srcLen (c : Nibble) (s : State) : (runHead c s).srcLen = s.srcLen := rfl
@[simp] theorem runHead_dstBase (c : Nibble) (s : State) : (runHead c s).dstBase = s.dstBase := rfl
@[simp] theorem runHead_outCount (c : Nibble) (s : State) : (runHead c s).outCount = s.outCount := rfl
@[simp] theorem runHead_nibCount (c : Nibble) (s : State) : (runHead c s).nibCount = s.nibCount := rfl
@[simp] theorem runHead_errPos (c : Nibble) (s : State) : (runHead c s).errPos = s.errPos := rfl
@[simp] theorem runHead_lutIn (c : Nibble) (s : State) : (runHead c s).lutIn = s.lutIn := rfl
@[simp] theorem runHead_lutOut (c : Nibble) (s : State) : (runHead c s).lutOut = s.lutOut := rfl
@[simp] theorem runHead_phase (c : Nibble) (s : State) : (runHead c s).phase = .dCount := rfl
@[simp] theorem runHead_i (c : Nibble) (s : State) : (runHead c s).i = s.i := rfl
@[simp] theorem runHead_r (c : Nibble) (s : State) : (runHead c s).r = s.r := rfl
@[simp] theorem runHead_cur (c : Nibble) (s : State) : (runHead c s).cur = c := rfl
@[simp] theorem runHead_k (c : Nibble) (s : State) : (runHead c s).k = s.k := rfl
@[simp] theorem runHead_hold (c : Nibble) (s : State) : (runHead c s).hold = s.hold := rfl
@[simp] theorem runHead_half (c : Nibble) (s : State) : (runHead c s).half = s.half := rfl
@[simp] theorem runHead_wb (c : Nibble) (s : State) : (runHead c s).wb = s.wb := rfl
@[simp] theorem runHead_p (c : Nibble) (s : State) : (runHead c s).p = s.p := rfl
@[simp] theorem runHead_out (c : Nibble) (s : State) : (runHead c s).out = s.out := rfl
@[simp] theorem runHead_reps (c : Nibble) (s : State) : (runHead c s).reps = s.reps := rfl
@[simp] theorem runHead_src (c : Nibble) (s : State) : (runHead c s).src = s.src := rfl
@[simp] theorem runHead_dst (c : Nibble) (s : State) : (runHead c s).dst = s.dst := rfl
@[simp] theorem runHead_inputs (c : Nibble) (s : State) : (runHead c s).inputs = s.inputs := rfl
@[simp] theorem runHead_turns (c : Nibble) (s : State) : (runHead c s).turns = s.turns := rfl
@[simp] theorem runHead_readData (c : Nibble) (s : State) : (runHead c s).readData = s.readData := rfl
@[simp] theorem runHead_draws (c : Nibble) (s : State) : (runHead c s).draws = s.draws := rfl
@[simp] theorem runHead_epoch (c : Nibble) (s : State) : (runHead c s).epoch = s.epoch := rfl

end Sys2Proof.Machine
end

