-- ==== Sys2Proof/Laws/Memory.lean ====
section
/-! SUPPORT. The laws of the buffers: read after write, and that every memory operation keeps the canonical form. -/

namespace Sys2Proof.Machine

/-- A byte reads as written, and every other address reads as before. -/
theorem get?_set (m : Memory) (a b : Nat) (v : Byte) :
    (m.set a v).get? b = if b = a then some v else m.get? b := by
  induction m with
  | nil => simp [Memory.set, Memory.get?, eq_comm]
  | cons c rest ih =>
    obtain ⟨x, w⟩ := c
    simp only [Memory.set]
    split
    · rename_i hax
      subst hax
      simp only [Memory.get?, eq_comm]
      split <;> rfl
    · rename_i hax
      split
      · simp only [Memory.get?]
        by_cases hb : b = a
        · rw [if_pos hb, if_pos hb.symm]
        · rw [if_neg hb, if_neg (Ne.symm hb)]
      · simp only [Memory.get?, ih]
        by_cases hb : b = a
        · rw [if_pos hb, if_pos hb, if_neg (fun h => hax (hb.symm.trans h.symm))]
        · rw [if_neg hb, if_neg hb]

@[simp] theorem get?_set_self (m : Memory) (a : Nat) (v : Byte) : (m.set a v).get? a = some v := by simp [get?_set]

theorem get?_set_other (m : Memory) {a b : Nat} (v : Byte) (h : b ≠ a) : (m.set a v).get? b = m.get? b := by
  simp [get?_set, h]

theorem risesFrom_set (m : Memory) (lo : Option Nat) (a : Nat) (v : Byte) (hlo : ∀ l, lo = some l → l < a)
    (h : m.risesFrom lo = true) : (m.set a v).risesFrom lo = true := by
  induction m generalizing lo with
  | nil => cases lo <;> simp_all [Memory.set, Memory.risesFrom]
  | cons c rest ih =>
    obtain ⟨x, w⟩ := c
    simp only [Memory.set]
    split
    · subst_vars
      cases lo <;> simp_all [Memory.risesFrom]
    · split
      · cases lo <;> simp_all [Memory.risesFrom]
      · have hx : x < a := by omega
        cases lo with
        | none => exact ih (some x) (fun l hl => by cases hl; exact hx) h
        | some l =>
          simp only [Memory.risesFrom, Bool.and_eq_true] at h ⊢
          exact ⟨h.1, ih (some x) (fun l hl => by cases hl; exact hx) h.2⟩

/-- A write keeps the canonical form. -/
theorem wf_set (m : Memory) (a : Nat) (v : Byte) (h : m.wf = true) : (m.set a v).wf = true :=
  risesFrom_set m none a v (fun _ hl => nomatch hl) h

/-- A write inside the buffer keeps every listed address inside it. -/
theorem within_set (m : Memory) (size a : Nat) (v : Byte) (ha : a < size) (h : m.within size = true) :
    (m.set a v).within size = true := by
  induction m with
  | nil => simp [Memory.set, Memory.within, ha]
  | cons c rest ih =>
    obtain ⟨x, w⟩ := c
    simp only [Memory.within, List.all_cons, Bool.and_eq_true] at h
    simp only [Memory.set]
    split
    · simp [Memory.within, ha, h.2]
    · split
      · simp only [Memory.within, List.all_cons, Bool.and_eq_true]
        exact ⟨decide_eq_true ha, h.1, h.2⟩
      · simp only [Memory.within, List.all_cons, Bool.and_eq_true]
        exact ⟨h.1, ih h.2⟩

/-- What a free window does to each byte: inside the window and the buffer the draw's byte, elsewhere nothing. -/
theorem get?_fillWindow (m : Memory) (size draw base len b : Nat) :
    (fillWindow m size draw base len).get? b =
      if base ≤ b ∧ b < base + len ∧ b < size then some (Config.windowByte draw b) else m.get? b := by
  induction len with
  | zero => simp [fillWindow]; omega
  | succ n ih =>
    simp only [fillWindow]
    split
    · rw [get?_set, ih]
      by_cases hb : b = base + n
      · subst hb
        rw [if_pos rfl, if_pos (by omega)]
      · rw [if_neg hb]
        congr 1
        simp only [eq_iff_iff]
        omega
    · rw [ih]
      congr 1
      simp only [eq_iff_iff]
      omega

theorem wf_fillWindow (m : Memory) (size draw base len : Nat) (h : m.wf = true) :
    (fillWindow m size draw base len).wf = true := by
  induction len with
  | zero => exact h
  | succ n ih =>
    simp only [fillWindow]
    split
    · exact wf_set _ _ _ ih
    · exact ih

theorem within_fillWindow (m : Memory) (size draw base len : Nat) (h : m.within size = true) :
    (fillWindow m size draw base len).within size = true := by
  induction len with
  | zero => exact h
  | succ n ih =>
    simp only [fillWindow]
    split
    · exact within_set _ _ _ _ ‹_› ih
    · exact ih

theorem wf_storeBytes (bs : List Byte) (m : Memory) (base : Nat) (h : m.wf = true) :
    (storeBytes m base bs).wf = true := by
  induction bs generalizing m base with
  | nil => exact h
  | cons b bs ih => exact ih _ _ (wf_set _ _ _ h)

/-- What storing a list of bytes does to each address. -/
theorem get?_storeBytes (bs : List Byte) (m : Memory) (base b : Nat) :
    (storeBytes m base bs).get? b =
      if base ≤ b ∧ b < base + bs.length then bs[b - base]? else m.get? b := by
  induction bs generalizing m base with
  | nil => simp [storeBytes]
  | cons v bs ih =>
    simp only [storeBytes, ih, get?_set, List.length_cons]
    by_cases hb : b = base
    · subst hb
      rw [if_neg (by omega), if_pos rfl, if_pos (by omega)]
      simp
    · by_cases hin : base + 1 ≤ b ∧ b < base + 1 + bs.length
      · rw [if_pos hin, if_pos (by omega)]
        have : b - base = (b - (base + 1)) + 1 := by omega
        rw [this, List.getElem?_cons_succ]
      · rw [if_neg hin, if_neg hb, if_neg (by omega)]

end Sys2Proof.Machine
end

