-- ==== Sys2Proof/Laws/Ops.lean ====
section
/-! SUPPORT. For each shared operation, once, everything it can do: "it answers next t exactly when …". -/

namespace Sys2Proof.Machine

/-! ### Sequencing and buffer accesses -/

theorem andThen_eq_next (x : Result) (f : State → Result) (t : State) :
    andThen x f = .next t ↔ ∃ s', x = .next s' ∧ f s' = .next t := by
  cases x <;> simp [andThen]

@[simp] theorem andThen_next (s : State) (f : State → Result) : andThen (.next s) f = f s := rfl

theorem memWrite_eq_next (a : Nat) (b : Byte) (s t : State) :
    memWrite a b s = .next t ↔ a < s.dstSize ∧ t = { s with dst := s.dst.set a b } := by
  unfold memWrite
  split <;> simp_all [eq_comm]

theorem memRead_eq_next (s : State) (a : Nat) (use : Byte → Result) (t : State) :
    memRead s a use = .next t ↔ a < s.srcSize ∧ use (s.srcByte a) = .next t := by
  unfold memRead
  split <;> simp_all

theorem readTileCode_eq_next (s : State) (j : Nat) (use : Nibble → Result) (t : State) :
    readTileCode s j use = .next t ↔
      s.sb + j < s.srcSize ∧ ∃ tile, tileOfByte s.map (s.srcByte (s.sb + j)) = some tile ∧ use tile.code = .next t := by
  unfold readTileCode
  rw [memRead_eq_next]
  cases tileOfByte s.map (s.srcByte (s.sb + j)) <;> simp

theorem readNibble_eq_next (s : State) (q : Nat) (use : Nibble → Result) (t : State) :
    readNibble s q use = .next t ↔ s.nibbleAddr q < s.srcSize ∧ use (s.nib q) = .next t := by
  unfold readNibble
  rw [memRead_eq_next, State.nib]

theorem writeTile_eq_next (tile : Tile) (s t : State) :
    writeTile tile s = .next t ↔
      s.db + s.out < s.dstSize ∧
      t = { s with dst := s.dst.set (s.db + s.out) (tile.toByte s.map), out := s.out + 1 } := by
  unfold writeTile
  rw [andThen_eq_next]
  simp only [memWrite_eq_next]
  constructor
  · rintro ⟨s', ⟨h, rfl⟩, h'⟩
    exact ⟨h, by simpa using h'.symm⟩
  · rintro ⟨h, rfl⟩
    exact ⟨_, ⟨h, rfl⟩, rfl⟩

/-- The byte DST holds at `b` after a write at `a`. -/
theorem dstByte_set (s : State) (a b : Nat) (v : Byte) :
    ({ s with dst := s.dst.set a v } : State).dstByte b = if b = a then v else s.dstByte b := by
  simp only [State.dstByte, get?_set]
  split <;> rfl

/-! ### Starting and completing a command -/

theorem start_busy (op : BitVec 3) (map : Bool) (s : State) (h : s.busy = true) : start op map s = s := by
  simp [start, h]

theorem start_idle (op : BitVec 3) (map : Bool) (s : State) (h : s.busy = false) :
    start op map s =
      { s with
        op := op, map := map, busy := true, done := false, err := false, errCode := 0
        outCount := 0, nibCount := 0, errPos := 0, phase := .check } := by
  simp [start, h]

@[simp] theorem windowUnspecified_isLut (s : State) : s.windowUnspecified.isLut = s.isLut := rfl
@[simp] theorem windowUnspecified_cells (s : State) : s.windowUnspecified.cells = s.cells := rfl
@[simp] theorem windowUnspecified_db (s : State) : s.windowUnspecified.db = s.db := rfl

/-- An error completion outside a DECODE writes registers only. -/
theorem raiseError_notDecoding (e : ErrorName) (pos : Nat) (s : State) (h : s.isDecoding = false) :
    raiseError e pos s = s.recordError e pos := by simp [raiseError, h]

/-- An error completion of a DECODE past CHECK leaves its output window UNSPECIFIED as well (U3). -/
theorem raiseError_decoding (e : ErrorName) (pos : Nat) (s : State) (h : s.isDecoding = true) :
    raiseError e pos s = s.windowUnspecified.recordError e pos := by simp [raiseError, h]

/-- Everything an error completion does, in one equation: DST and the draw counter are the only fields that depend on
whether a DECODE is past CHECK. -/
theorem raiseError_eq (e : ErrorName) (pos : Nat) (s : State) :
    raiseError e pos s =
      { s.recordError e pos with
        dst := (raiseError e pos s).dst
        draws := (raiseError e pos s).draws } := by
  cases h : s.isDecoding
  · rw [raiseError_notDecoding e pos s h]
  · rw [raiseError_decoding e pos s h]
    rfl

/-- A byte outside the output window keeps its value at an error completion. -/
theorem raiseError_dstByte_outside (e : ErrorName) (pos : Nat) (s : State) (a : Nat)
    (ha : ¬ (s.db ≤ a ∧ a < s.db + s.outputLen)) : (raiseError e pos s).dstByte a = s.dstByte a := by
  cases h : s.isDecoding
  · rw [raiseError_notDecoding e pos s h]
    rfl
  · rw [raiseError_decoding e pos s h]
    simp only [State.dstByte, recordError_dst, recordError_epoch, windowUnspecified_dst, windowUnspecified_epoch,
      get?_fillWindow]
    rw [if_neg (fun hc => ha ⟨hc.1, hc.2.1⟩)]

/-! ### The pieces of the encoder and decoder -/

theorem push_half (n : Nibble) (s t : State) (h : s.half = true) :
    push n s = .next t ↔
      s.db + s.wb < s.dstSize ∧
      t = { s with dst := s.dst.set (s.db + s.wb) (joinNibbles s.hold n), k := s.k + 1, wb := s.wb + 1, half := false } := by
  unfold push
  rw [if_pos h, andThen_eq_next]
  simp only [memWrite_eq_next]
  constructor
  · rintro ⟨s', ⟨hs, rfl⟩, h'⟩
    exact ⟨hs, by simpa using h'.symm⟩
  · rintro ⟨hs, rfl⟩
    exact ⟨_, ⟨hs, rfl⟩, rfl⟩

theorem push_empty (n : Nibble) (s : State) (h : s.half = false) :
    push n s = .next { s with k := s.k + 1, hold := n, half := true } := by
  simp [push, h]

theorem litHead_eq_next (tile : Tile) (s t : State) :
    litHead tile s = .next t ↔
      s.db + s.out < s.dstSize ∧
      t = { s with dst := s.dst.set (s.db + s.out) (tile.toByte s.map), out := s.out + 1, p := s.p + 1 } := by
  unfold litHead
  rw [andThen_eq_next]
  simp only [writeTile_eq_next]
  constructor
  · rintro ⟨s', ⟨h, rfl⟩, h'⟩
    exact ⟨h, by simpa using h'.symm⟩
  · rintro ⟨h, rfl⟩
    exact ⟨_, ⟨h, rfl⟩, rfl⟩

theorem dRunLine_eq_next (s t : State) :
    dRunLine s = .next t ↔
      ∃ tile, tileOfCode s.cur = some tile ∧ s.db + s.out < s.dstSize ∧
      t = { s with
        dst := s.dst.set (s.db + s.out) (tile.toByte s.map), out := s.out + 1, reps := s.reps - 1
        phase := if s.reps - 1 = 0 then .dHead else .dRun } := by
  unfold dRunLine
  cases tileOfCode s.cur with
  | none => simp
  | some tile =>
    simp only [andThen_eq_next, writeTile_eq_next, Option.some.injEq, exists_eq_left']
    constructor
    · rintro ⟨s', ⟨h, rfl⟩, h'⟩
      exact ⟨h, by simpa using h'.symm⟩
    · rintro ⟨h, rfl⟩
      exact ⟨_, ⟨h, rfl⟩, rfl⟩

/-- The rest of a run, `n` tiles that fit into DST: they stand one after another from DST[db + out]. -/
theorem finishRun_next (tile : Tile) (n : Nat) (s : State) (hc : tileOfCode s.cur = some tile) (hr : s.reps = n)
    (hp : s.phase = .dRun) (hn : n ≠ 0) (hfit : s.db + s.out + n ≤ s.dstSize) :
    finishRun n s = .next
      { s with
        dst := storeBytes s.dst (s.db + s.out) (List.replicate n (tile.toByte s.map))
        out := s.out + n, reps := 0, phase := .dHead } := by
  induction n generalizing s with
  | zero => exact absurd rfl hn
  | succ n ih =>
    have h1 := (dRunLine_eq_next s _).2 ⟨tile, hc, by omega, rfl⟩
    simp only [finishRun, h1, andThen_next]
    cases n with
    | zero => simp [finishRun, hr, storeBytes, List.replicate]
    | succ m =>
      rw [ih]
      · simp [storeBytes, List.replicate_succ, State.db, Nat.add_assoc, Nat.add_comm 1]
      · exact hc
      · simp [hr]
      · simp [hr]
      · omega
      · simp only [State.db] at hfit ⊢
        omega

/-! ### The host's accesses -/

theorem hostTurn_none (s : State) (h : s.inputs = []) : hostTurn s = .next s := by simp [hostTurn, h]

theorem hostTurn_some (s : State) (a : PortAccess) (rest : List PortAccess) (h : s.inputs = a :: rest) :
    hostTurn s = portAccess a { s with inputs := rest } := by simp [hostTurn, h]

theorem regWrite_ctrl (v : Word) (s : State) : regWrite 0 v s = exec (decodeCommand v) s := rfl

theorem regWrite_other (idx : BitVec 5) (v : Word) (s : State) (h : idx ≠ 0) : regWrite idx v s = .next (writeReg idx v s) := by
  rw [regWrite, if_neg h]

theorem writeReg_busy (idx : BitVec 5) (v : Word) (s : State) (h : s.busy = true) : writeReg idx v s = s := by
  simp [writeReg, h]

/-! ### Steps -/

theorem engineLine_idle (s : State) (h : s.busy = false) : engineLine s = .next s := by simp [engineLine, h]

theorem engineLine_busy (s : State) (h : s.busy = true) : engineLine s = phaseLine s := by simp [engineLine, h]

theorem tokenTurn_fetched (s : State) (i : Instr) (h : s.fetchToken = some i) : tokenTurn s = exec i s := by
  simp [tokenTurn, h]

theorem tokenTurn_none (s : State) (h : s.fetchToken = none) : tokenTurn s = engineLine s := by
  simp [tokenTurn, h]

end Sys2Proof.Machine
end

