-- ==== Sys2Proof/Laws/PerInstr.lean ====
section
/-! SUPPORT. A fact about every instruction as syntax, one lemma for each constructor: its encoding has the bits its row of
spec/opcode_table.json fixes (30_encoding.md R80). -/

namespace Sys2Proof.Laws

/-- The encoding of a well-formed instruction matches its row's mask and pattern. -/
def EncodingMatchesRow.Statement (i : Instr) : Prop :=
  i.wellFormed = true → i.row.matches (Sys2Proof.encode i).tableBits = true

/-- A count that fits a nibble is one of sixteen. -/
theorem forall_count (P : Nat → Prop) (h : ∀ n : Fin 16, P n.val) (n : Nat) (hn : countFits n = true) : P n :=
  h ⟨n, of_decide_eq_true hn⟩

theorem EncodingMatchesRow.srst : Statement .srst := fun _ => by decide
theorem EncodingMatchesRow.setcfg (op : BitVec 3) (map : Bool) : Statement (.setcfg op map) := fun _ => by
  revert op map; decide
theorem EncodingMatchesRow.encode (map : Bool) : Statement (.encode map) := fun _ => by revert map; decide
theorem EncodingMatchesRow.decode (map : Bool) : Statement (.decode map) := fun _ => by revert map; decide
theorem EncodingMatchesRow.lutEnc (map : Bool) : Statement (.lutEnc map) := fun _ => by revert map; decide
theorem EncodingMatchesRow.lutDec (map : Bool) : Statement (.lutDec map) := fun _ => by revert map; decide
theorem EncodingMatchesRow.rsvdOp4 (map : Bool) : Statement (.rsvdOp4 map) := fun _ => by revert map; decide
theorem EncodingMatchesRow.rsvdOp5 (map : Bool) : Statement (.rsvdOp5 map) := fun _ => by revert map; decide
theorem EncodingMatchesRow.rsvdOp6 (map : Bool) : Statement (.rsvdOp6 map) := fun _ => by revert map; decide
theorem EncodingMatchesRow.rsvdOp7 (map : Bool) : Statement (.rsvdOp7 map) := fun _ => by revert map; decide
theorem EncodingMatchesRow.litFloor : Statement .litFloor := fun _ => by decide
theorem EncodingMatchesRow.litWall : Statement .litWall := fun _ => by decide
theorem EncodingMatchesRow.litGoal : Statement .litGoal := fun _ => by decide
theorem EncodingMatchesRow.litBox : Statement .litBox := fun _ => by decide
theorem EncodingMatchesRow.litBoxGoal : Statement .litBoxGoal := fun _ => by decide
theorem EncodingMatchesRow.runFloor (n : Nat) : Statement (.runFloor n) :=
  forall_count (fun n => (Instr.runFloor n).row.matches (Sys2Proof.encode (.runFloor n)).tableBits = true) (by decide) n
theorem EncodingMatchesRow.runWall (n : Nat) : Statement (.runWall n) :=
  forall_count (fun n => (Instr.runWall n).row.matches (Sys2Proof.encode (.runWall n)).tableBits = true) (by decide) n
theorem EncodingMatchesRow.runGoal (n : Nat) : Statement (.runGoal n) :=
  forall_count (fun n => (Instr.runGoal n).row.matches (Sys2Proof.encode (.runGoal n)).tableBits = true) (by decide) n
theorem EncodingMatchesRow.runBox (n : Nat) : Statement (.runBox n) :=
  forall_count (fun n => (Instr.runBox n).row.matches (Sys2Proof.encode (.runBox n)).tableBits = true) (by decide) n
theorem EncodingMatchesRow.runBoxGoal (n : Nat) : Statement (.runBoxGoal n) :=
  forall_count (fun n => (Instr.runBoxGoal n).row.matches (Sys2Proof.encode (.runBoxGoal n)).tableBits = true) (by decide) n
theorem EncodingMatchesRow.inv6 : Statement .inv6 := fun _ => by decide
theorem EncodingMatchesRow.inv7 : Statement .inv7 := fun _ => by decide
theorem EncodingMatchesRow.invA : Statement .invA := fun _ => by decide
theorem EncodingMatchesRow.invB : Statement .invB := fun _ => by decide
theorem EncodingMatchesRow.invE : Statement .invE := fun _ => by decide
theorem EncodingMatchesRow.invF : Statement .invF := fun _ => by decide

end Sys2Proof.Laws
end

