-- ==== Sys2Proof/Machine/Asm.lean ====
section
/-! DEFINITION. The spec's assembler (30_encoding.md R91, R92): token items to payload bytes, and host lines to port accesses. -/

namespace Sys2Proof.Machine

/-- One token line (R91). -/
inductive AsmItem where
  | lit (t : Tile)
  | run (t : Tile) (len : Nat)
  | pad
  | raw (n : Nibble)
deriving DecidableEq, Repr

/-- The nibbles of one item; a RUN length outside 3..18 assembles to nothing. -/
def AsmItem.nibbles : AsmItem → Option (List Nibble)
  | .lit t => some [t.code]
  | .run t len => if 3 ≤ len ∧ len ≤ 18 then some [t.code ||| 1, BitVec.ofNat 4 (len - 3)] else none
  | .pad => some [0]
  | .raw n => some [n]

/-- The nibbles of a whole stream; `before` nibbles stand before it. `.pad` stands only at the end, after an odd number. -/
def asmNibbles : Nat → List AsmItem → Option (List Nibble)
  | _, [] => some []
  | before, item :: rest =>
    if item = .pad ∧ (rest ≠ [] ∨ before % 2 = 0) then none
    else
      match item.nibbles with
      | none => none
      | some ns =>
        match asmNibbles (before + ns.length) rest with
        | none => none
        | some more => some (ns ++ more)

/-- A stream of whole bytes, high nibble first (R91, R54). DESIGN CHOICE: an odd-length stream without its `.pad` assembles to
nothing; R91 says only where `.pad` may stand (log 21). -/
def assemble (items : List AsmItem) : Option (List Byte) :=
  match asmNibbles 0 items with
  | none => none
  | some ns => if ns.length % 2 = 0 then some (pack ns) else none

/-- `start <CMD>[, map]` (R92). -/
def asmStart (op : BitVec 3) (map : Bool) : PortAccess := .regWrite 0 (commandWord op map true)

/-- `setcfg <CMD>[, map]` (R92). -/
def asmSetcfg (op : BitVec 3) (map : Bool) : PortAccess := .regWrite 0 (commandWord op map false)

/-- `srst` (R92). -/
def asmSrst : PortAccess := .regWrite 0 0x00008000

/-- `wsrcs <a>, <b0>, <b1>, ...` (R92). DESIGN CHOICE: an address past 0xFFFF wraps to 0, of which R92 says nothing (log 22). -/
def asmWsrcs (a : Nat) : List Byte → List PortAccess
  | [] => []
  | b :: bs => .srcWrite (BitVec.ofNat 16 a) b :: asmWsrcs (a + 1) bs

/-- `rdsts <a>, <n>` (R92). DESIGN CHOICE: an address past 0xFFFF wraps to 0, as in `asmWsrcs` (log 22). -/
def asmRdsts (a : Nat) : Nat → List PortAccess
  | 0 => []
  | n + 1 => .dstRead (BitVec.ofNat 16 a) :: asmRdsts (a + 1) n

end Sys2Proof.Machine
end

