-- ==== Sys2Proof/Tests/Slice0.lean ====
section
/-! SUPPORT. Small tests, one step each, with results from the spec's own tables (95_test_vectors.md) or worked by hand from
its rules; and for each statement with hypotheses a state that meets them. -/

namespace Sys2Proof.Tests

open Sys2Proof.Machine

/-! ### The WellFormed smoke test: the one check, a count of one nibble -/

theorem test_smoke_runFloor_16_refused : (Instr.runFloor 16).wellFormed = false := by decide
theorem test_smoke_runWall_16_refused : (Instr.runWall 16).wellFormed = false := by decide
theorem test_smoke_runGoal_16_refused : (Instr.runGoal 16).wellFormed = false := by decide
theorem test_smoke_runBox_16_refused : (Instr.runBox 16).wellFormed = false := by decide
theorem test_smoke_runBoxGoal_16_refused : (Instr.runBoxGoal 16).wellFormed = false := by decide
theorem test_smoke_run_15_accepted : (Instr.runWall 15).wellFormed = true := by decide

/-! ### Decoding: words written out from 30_encoding.md R81, R82, R86 -/

/-- 0000 0000 0000 0000 1000 0000 0000 0001: bit 15 wins over START (95 section 2.7). -/
theorem test_decode_srst : decodeTableWord 32 0x00008001 = some .srst := by decide
/-- 0x0000000E: START 0, OP 111, MAP 0 (95 section 2.7). -/
theorem test_decode_setcfg : decodeTableWord 32 0x0000000E = some (.setcfg 7 false) := by decide
/-- 0xFFFF0011: reserved bits ignored, ENCODE with MAP (95 section 2.7). -/
theorem test_decode_encode : decodeTableWord 32 0xFFFF0011 = some (.encode true) := by decide
/-- 0x00000013 (95 P2). -/
theorem test_decode_decode : decodeTableWord 32 0x00000013 = some (.decode true) := by decide
/-- 0x00000005 and 0x00000007 (95 P3). -/
theorem test_decode_lutEnc : decodeTableWord 32 0x00000005 = some (.lutEnc false) := by decide
theorem test_decode_lutDec : decodeTableWord 32 0x00000007 = some (.lutDec false) := by decide
/-- START with OP 100 to 111 (R82). -/
theorem test_decode_rsvdOp4 : decodeTableWord 32 0x00000009 = some (.rsvdOp4 false) := by decide
theorem test_decode_rsvdOp5 : decodeTableWord 32 0x0000001B = some (.rsvdOp5 true) := by decide
theorem test_decode_rsvdOp6 : decodeTableWord 32 0x0000000D = some (.rsvdOp6 false) := by decide
theorem test_decode_rsvdOp7 : decodeTableWord 32 0x0000001F = some (.rsvdOp7 true) := by decide
/-- TOK4 heads (R86). -/
theorem test_decode_litFloor : decodeTableWord 8 0b0000 = some .litFloor := by decide
theorem test_decode_litWall : decodeTableWord 8 0b0010 = some .litWall := by decide
theorem test_decode_litGoal : decodeTableWord 8 0b0100 = some .litGoal := by decide
theorem test_decode_litBox : decodeTableWord 8 0b1000 = some .litBox := by decide
theorem test_decode_litBoxGoal : decodeTableWord 8 0b1100 = some .litBoxGoal := by decide
/-- TOK8 pairs (R86, R88): any count nibble is legal. -/
theorem test_decode_runFloor : decodeTableWord 8 0b00010000 = some (.runFloor 0) := by decide
theorem test_decode_runWall : decodeTableWord 8 0b00110110 = some (.runWall 6) := by decide
theorem test_decode_runGoal : decodeTableWord 8 0b01010001 = some (.runGoal 1) := by decide
theorem test_decode_runBox : decodeTableWord 8 0b10011111 = some (.runBox 15) := by decide
theorem test_decode_runBoxGoal : decodeTableWord 8 0b11010000 = some (.runBoxGoal 0) := by decide
/-- Invalid heads (R86), whatever the control bit. -/
theorem test_decode_inv6 : decodeTableWord 8 0b0110 = some .inv6 := by decide
theorem test_decode_inv7 : decodeTableWord 8 0b0111 = some .inv7 := by decide
theorem test_decode_invA : decodeTableWord 8 0b1010 = some .invA := by decide
theorem test_decode_invB : decodeTableWord 8 0b1011 = some .invB := by decide
theorem test_decode_invE : decodeTableWord 8 0b1110 = some .invE := by decide
theorem test_decode_invF : decodeTableWord 8 0b1111 = some .invF := by decide
/-- A RUN head alone is no token (R144), and no nibble is none. -/
theorem test_decode_missing_count : decodeToken [0x3] = .error .missingCount := rfl
theorem test_decode_no_head : decodeToken [] = .error .noHead := rfl

/-! ### Single steps -/

/-- The next state, where there is one. -/
def after (x : Result) : Option State :=
  match x with
  | .next s => some s
  | .fault _ => none
  | .refused _ => none

/-- An idle state of a small part with one SRC byte, a LUT operand and one command's operands set. -/
def idleState : State :=
  { State.reset with
    srcSize := 8, dstSize := 8, cellCount := 4, srcLen := 1, dstBase := 2, lutIn := 3, lutOut := 5, outCount := 9, src := [(0, 0x3F)] }

/-- A DECODE at its first head, with 18 tiles to write from a payload of two bytes. -/
def decodingState : State :=
  { State.reset with
    op := 1, busy := true, cellCount := 18, srcLen := 2, dstBase := 2, phase := .dHead, src := [(0, 0x3F), (1, 0x20)] }

/-- 95 section 2.7: SRST clears the registers and starts nothing. -/
theorem test_srst :
    (after (exec .srst { idleState with op := 5, done := true })).map (fun t => (t.lutIn, t.op, t.done, t.src)) =
      some (0, 0, false, [(0, 0x3F)]) := by decide
/-- R172: while busy SRST abandons the command: neither DONE nor ERR. -/
theorem test_srst_busy :
    (after (exec .srst decodingState)).map (fun t => (t.statusWord, t.phase, t.srcLen)) = some (0, .idle, 0) := by decide
/-- 95 section 2.7: SETCFG 0x0E, CTRL reads 0x0E, STATUS stays 0x02. -/
theorem test_setcfg :
    (after (exec (.setcfg 7 false) { idleState with done := true })).map (fun t => (t.readReg 0, t.readReg 1)) =
      some (0x0E, 0x02) := by decide
/-- R170's example: CTRL reads 0x10, STATUS 0x01. -/
theorem test_encode_start :
    (after (exec (.encode true) idleState)).map (fun t => (t.readReg 0, t.readReg 1, t.readReg 6, t.phase)) =
      some (0x10, 0x01, 0, .check) := by decide
theorem test_decode_start :
    (after (exec (.decode true) idleState)).map (fun t => (t.readReg 0, t.readReg 1)) = some (0x12, 0x01) := by decide
/-- 95 section 2.7: a START while busy is ignored, OP and MAP included. -/
theorem test_encode_busy : after (exec (.encode true) decodingState) = some decodingState := by decide
/-- 95 section 2.2: LUT_ENC of id 3 gives 0x8, of id 5 an error. -/
theorem test_lutEnc_line :
    (after (engineLine { idleState with op := 2, busy := true, phase := .lut })).map (fun t => (t.statusWord, t.lutOut)) =
      some (0x02, 0x8) := by decide
theorem test_lutEnc_invalid :
    (after (engineLine { idleState with op := 2, busy := true, phase := .lut, lutIn := 5 })).map
      (fun t => (t.statusWord, t.lutOut)) = some (0x16, 0) := by decide
/-- 95 section 2.2: LUT_DEC of 0x8 gives 3, of 0x1 (control bit set) an error. -/
theorem test_lutDec_line :
    (after (engineLine { idleState with op := 3, busy := true, phase := .lut, lutIn := 0x8 })).map
      (fun t => (t.statusWord, t.lutOut)) = some (0x02, 3) := by decide
theorem test_lutDec_control_bit :
    (after (engineLine { idleState with op := 3, busy := true, phase := .lut, lutIn := 0x1 })).map
      (fun t => (t.statusWord, t.lutOut)) = some (0x16, 0) := by decide
theorem test_lutEnc_start : (after (exec (.lutEnc true) idleState)).map (·.readReg 0) = some 0x14 := by decide
theorem test_lutDec_start : (after (exec (.lutDec true) idleState)).map (·.readReg 0) = some 0x16 := by decide
/-- 95 section 2.7: START with OP 100, CTRL reads 0x08; then 0x56 (P3). -/
theorem test_rsvdOp4_start : (after (exec (.rsvdOp4 false) idleState)).map (·.readReg 0) = some 0x08 := by decide
theorem test_rsvdOp4_check :
    (after (engineLine { idleState with op := 4, busy := true, phase := .check })).map
      (fun t => (t.statusWord, t.lutOut, t.errPos)) = some (0x56, 5, 0) := by decide
theorem test_rsvdOp5_start : (after (exec (.rsvdOp5 false) idleState)).map (·.readReg 0) = some 0x0A := by decide
theorem test_rsvdOp6_start : (after (exec (.rsvdOp6 false) idleState)).map (·.readReg 0) = some 0x0C := by decide
theorem test_rsvdOp7_start : (after (exec (.rsvdOp7 true) idleState)).map (·.readReg 0) = some 0x1E := by decide

/-- R143's example: nibble 0x4 at p = 4 with out = 8: DST[db + 8] <- 0x04, out = 9, p = 5. -/
theorem test_litGoal :
    (after (exec .litGoal { decodingState with out := 8, p := 4 })).map (fun t => (t.dst, t.out, t.p)) =
      some ([(10, 0x04)], 9, 5) := by decide
theorem test_litFloor : (after (exec .litFloor decodingState)).map (·.dst) = some [(2, 0x00)] := by decide
theorem test_litWall_ids : (after (exec .litWall { decodingState with map := true })).map (·.dst) = some [(2, 0x01)] := by decide
theorem test_litBox : (after (exec .litBox decodingState)).map (·.dst) = some [(2, 0x08)] := by decide
theorem test_litBoxGoal_ids :
    (after (exec .litBoxGoal { decodingState with map := true })).map (·.dst) = some [(2, 0x04)] := by decide

/-- R144: count 0 is 3 tiles; p moves by 2. -/
theorem test_runWall :
    (after (exec (.runWall 0) decodingState)).map (fun t => (t.dst, t.out, t.p, t.phase)) =
      some ([(2, 0x02), (3, 0x02), (4, 0x02)], 3, 2, .dHead) := by decide
/-- R144: a RUN that passes N fails at its head, before any tile (95 T3). -/
theorem test_runWall_passes_n :
    (after (exec (.runWall 1) { decodingState with cellCount := 1, srcLen := 1 })).map (fun t => (t.statusWord, t.errPos)) =
      some (0x26, 0) := by decide
theorem test_runFloor : (after (exec (.runFloor 1) decodingState)).map (·.dst) =
    some [(2, 0), (3, 0), (4, 0), (5, 0)] := by decide
theorem test_runGoal_ids : (after (exec (.runGoal 0) { decodingState with map := true })).map (·.dst) =
    some [(2, 2), (3, 2), (4, 2)] := by decide
/-- R88: count 15 is 18 tiles. -/
theorem test_runBox : (after (exec (.runBox 15) decodingState)).map (fun t => (t.out, t.dst.length)) = some (18, 18) := by decide
/-- R144: the count is missing when the head is the last nibble: position p + 1. -/
theorem test_runBoxGoal_missing_count :
    (after (exec (.runBoxGoal 0) { decodingState with p := 3 })).map (fun t => (t.statusWord, t.errPos)) =
      some (0x26, 4) := by decide

/-- 95 section 2.6: an invalid head gives 0x16 at its index. -/
theorem test_inv6 : (after (exec .inv6 { decodingState with p := 2 })).map (fun t => (t.statusWord, t.errPos)) =
    some (0x16, 2) := by decide
theorem test_inv7 : (after (exec .inv7 decodingState)).map (·.statusWord) = some 0x16 := by decide
theorem test_invA : (after (exec .invA decodingState)).map (·.statusWord) = some 0x16 := by decide
theorem test_invB : (after (exec .invB decodingState)).map (·.statusWord) = some 0x16 := by decide
theorem test_invE : (after (exec .invE decodingState)).map (·.statusWord) = some 0x16 := by decide
theorem test_invF : (after (exec .invF decodingState)).map (·.statusWord) = some 0x16 := by decide

/-! ### Fetching -/

theorem test_fetch_command : step (State.reset.withFetchWord 32 0x13) = exec (.decode true) State.reset := rfl
theorem test_fetch_lit : (after (step (State.reset.withFetchWord 8 0x4))).map (fun t => (t.dst, t.p)) =
    some ([(0, 0x04)], 1) := by decide
theorem test_fetch_run : (after (step (State.reset.withFetchWord 8 0x9F))).map (fun t => (t.out, t.p, t.phase)) =
    some (18, 2, .dHead) := by decide
theorem test_fetch_invalid : (after (step (State.reset.withFetchWord 8 0x7))).map (·.statusWord) = some 0x16 := by decide

/-! ### The spec's worked examples, on the functional forms (95 W1, W6, sections 2.3, 2.5, 2.6, P4) -/

/-- The 15 cells of the source's example level. -/
def w1Cells : List Nibble := [2, 2, 2, 2, 2, 2, 0, 0, 4, 2, 2, 2, 2, 2, 2]

theorem test_w1_encode : pack (rleEncode w1Cells) = [0x33, 0x00, 0x43, 0x30] := by decide
theorem test_w1_decode : rleDecode (unpackBytes [0x33, 0x00, 0x43, 0x30]) 4 15 = .ok (w1Cells, 7) := by rfl
theorem test_w6_split : rleEncode (List.replicate 40 2) = [3, 0xF, 3, 0xF, 3, 1] := by decide
theorem test_run_of_two_is_two_lits : rleEncode [2, 2] = [2, 2] := by decide
theorem test_unread_byte : rleDecode (unpackBytes [0x30, 0x7F]) 2 3 = .error (.payloadLengthMismatch, 2) := by rfl
theorem test_invalid_before_missing : rleDecode (unpackBytes [0x0F]) 1 2 = .error (.invalidTileCode, 1) := by rfl
theorem test_p4_assembles :
    assemble [.lit .wall, .run .goal 3, .run .box 18, .lit .floor, .lit .wall, .pad] = some [0x25, 0x09, 0xF0, 0x20] := by decide

end Sys2Proof.Tests
end

