-- ==== Sys2Proof/Tests/Witnesses.lean ====
section
/-! SUPPORT. For each statement with hypotheses, a state and operands that meet them all, at boundary values where a clause has a
range. The name of each theorem is witness_ and the statement's name, and the clause where there are several. -/

namespace Sys2Proof.Tests

open Sys2Proof.Machine

/-! ### Legal states -/

/-- Idle, with four Floor tiles and a Wall in SRC: ENCODE and DECODE both have operands. -/
def legalIdle : State :=
  { State.reset with
    srcSize := 8, dstSize := 4, cellCount := 4, srcLen := 1, dstBase := 0
    src := [(0, 0x12), (1, 0x00), (2, 0x00), (3, 0x00)] }

/-- A DECODE of `[3F 20]` at its first head. -/
def legalDecoding : State :=
  { State.reset with
    dstSize := 20, op := 1, busy := true, cellCount := 18, srcLen := 2, dstBase := 2, phase := .dHead, src := [(0, 0x3F), (1, 0x20)] }

theorem legalIdle_inv : Inv legalIdle where
  sizes := by unfold SizesLegal; decide
  buffers := by unfold BuffersLegal; decide
  status := by unfold StatusLegal; decide
  phaseBusy := by decide
  resultsClear := by decide
  hidden := by unfold HiddenFit; decide
  phase := trivial

theorem legalDecoding_inv : Inv legalDecoding where
  sizes := by unfold SizesLegal; decide
  buffers := by unfold BuffersLegal; decide
  status := by unfold StatusLegal; decide
  phaseBusy := by decide
  resultsClear := by decide
  hidden := by unfold HiddenFit; decide
  phase := by show Decoding legalDecoding; unfold Decoding; decide

/-! ### Encoding -/

theorem witness_ReservedCommandBitsAreIgnored : (0xFFFF0011 : Word) &&& 0x0000801F = 0x00000011 &&& 0x0000801F := by decide
theorem witness_DecodeOfEncodeIsTheInstruction_word :
    (Instr.setcfg 7 true).wellFormed = true ∧ encode (.setcfg 7 true) = .word 0x0000001E ∧
      (0xFFFF7FFE : Word) &&& 0x0000801F = 0x0000001E := by decide
theorem witness_DecodeOfEncodeIsTheInstruction_token :
    (Instr.runWall 15).wellFormed = true ∧ encode (.runWall 15) = .nibbles [3, 15] := by decide
theorem witness_EncodeOfDecodedTokenIsWhatWasRead : decodeToken [0xD, 0xF, 2] = .ok (.runBoxGoal 15, [2]) := rfl

/-! ### Steps -/

theorem witness_StepRunsTheCommandWritten_default :
    ∃ s : State, s.inputs = .regWrite 0 0x13 :: [] ∧ s.turns = [] ∧ s.busy = false :=
  ⟨{ legalIdle with inputs := [.regWrite 0 0x13] }, by decide⟩
theorem witness_StepRunsTheCommandWritten_turn :
    ∃ s : State, s.inputs = .regWrite 0 0x8000 :: [] ∧ s.turns = .host :: [] :=
  ⟨{ legalDecoding with inputs := [.regWrite 0 0x8000], turns := [.host] }, by decide⟩
theorem witness_StepRunsTheTokenFetched_default :
    legalDecoding.busy = true ∧ legalDecoding.phase = .dHead ∧ legalDecoding.out < legalDecoding.cells ∧
      legalDecoding.p < 2 * legalDecoding.payloadLen ∧ legalDecoding.sb + legalDecoding.payloadLen ≤ legalDecoding.srcSize ∧
      decodeToken legalDecoding.tokenNibbles = .ok (.runWall 15, []) ∧ legalDecoding.turns = [] :=
  ⟨rfl, rfl, by decide, by decide, by decide, rfl, rfl⟩
/-- The last nibble, and a payload that ends where SRC does. -/
def lastNibble : State := { legalDecoding with p := 3, srcSize := 2, out := 17, turns := [.engineToken] }
theorem witness_StepRunsTheTokenFetched_turn :
    lastNibble.busy = true ∧ lastNibble.phase = .dHead ∧ lastNibble.out < lastNibble.cells ∧
      lastNibble.p < 2 * lastNibble.payloadLen ∧ lastNibble.sb + lastNibble.payloadLen ≤ lastNibble.srcSize ∧
      decodeToken lastNibble.tokenNibbles = .ok (.litFloor, []) ∧ lastNibble.turns = .engineToken :: [] :=
  ⟨rfl, rfl, by decide, by decide, by decide, rfl, rfl⟩
theorem witness_FetchedNibblesAreTheUnpackedPayload : 3 < 2 * legalDecoding.payloadLen := by decide
theorem witness_IdleBlockDoesNothing_engine :
    ∃ s : State, s.busy = false ∧ s.turns = .engineToken :: [.engineLine] ∧ s.inputs = [.waitIdle] ∧ Turn.engineToken ≠ .host :=
  ⟨{ legalIdle with turns := [.engineToken, .engineLine], inputs := [.waitIdle] }, by decide⟩
/-- An idle block whose phase looks like a DECODE's: a token turn must ask for BUSY. -/
theorem witness_IdleBlockDoesNothing_token :
    ∃ s : State, s.busy = false ∧ s.phase = .dHead ∧ s.turns = [.engineToken] :=
  ⟨{ legalDecoding with busy := false, turns := [.engineToken] }, by decide⟩
theorem witness_IdleBlockDoesNothing_host :
    ∃ s : State, s.busy = false ∧ s.turns = .host :: [.host] ∧ s.inputs = [] :=
  ⟨{ legalIdle with turns := [.host, .host] }, by decide⟩
theorem witness_IdleBlockDoesNothing_none : legalIdle.busy = false ∧ legalIdle.inputs = [] ∧ legalIdle.turns = [] := by decide

/-! ### Command control -/

theorem witness_StartCommandsAreAccepted :
    legalIdle.busy = false ∧ legalDecoding.busy = true ∧ (0x00008001 : Word).getLsbD 15 = true ∧
      (0x0000001F : Word).getLsbD 15 = false ∧ (0x0000001F : Word).getLsbD 0 = true := by decide
theorem witness_SetcfgStoresOpAndMap :
    legalIdle.busy = false ∧ (0x0000000E : Word).getLsbD 15 = false ∧ (0x0000000E : Word).getLsbD 0 = false := by decide
theorem witness_SoftResetKeepsBuffersAndClearsRegisters_idle : legalIdle.busy = false := by decide
theorem witness_SoftResetKeepsBuffersAndClearsRegisters_outside :
    legalDecoding.busy = true ∧
      ¬ (legalDecoding.db ≤ 20 ∧ 20 < legalDecoding.db + legalDecoding.outputLen) ∧
      ¬ (legalDecoding.db ≤ 1 ∧ 1 < legalDecoding.db + legalDecoding.outputLen) := by decide
theorem witness_OnlySoftResetActsWhileBusy :
    legalDecoding.busy = true ∧ (0x00000003 : Word).getLsbD 15 = false ∧ (2 : BitVec 5) ≠ 0 ∧
      (0x00008000 : Word).getLsbD 15 = true ∧ Instr.encode true ≠ .srst ∧ encode (.encode true) = .word 0x00000011 := by decide
theorem witness_HostRegisterWrite_ctrl :
    legalIdle.busy = false ∧ legalDecoding.busy = true ∧ (0x00008001 : Word).getLsbD 15 = true ∧
      (0x00000011 : Word).getLsbD 15 = false ∧ (0x00000011 : Word).getLsbD 0 = true ∧
      (0x00000010 : Word).getLsbD 0 = false ∧ (0x00000010 : Word).getLsbD 15 = false := by decide
theorem witness_HostRegisterWrite_others :
    (1 : BitVec 5) ∉ ([0, 2, 3, 4, 5, 9] : List (BitVec 5)) ∧ (6 : BitVec 5) ∉ ([0, 2, 3, 4, 5, 9] : List (BitVec 5)) ∧
      (8 : BitVec 5) ∉ ([0, 2, 3, 4, 5, 9] : List (BitVec 5)) ∧ (10 : BitVec 5) ∉ ([0, 2, 3, 4, 5, 9] : List (BitVec 5)) ∧
      (31 : BitVec 5) ∉ ([0, 2, 3, 4, 5, 9] : List (BitVec 5)) := by decide
theorem witness_WrittenRegisterReadsBack : legalIdle.busy = false := by decide
theorem witness_RegisterReadsShowTheFields : 11 ≤ (11 : BitVec 5).toNat ∧ 11 ≤ (31 : BitVec 5).toNat := by decide

/-- A command at CHECK in a part of 8 and 4 bytes. -/
def checking (op : BitVec 3) (n : BitVec 16) : State :=
  { legalIdle with op := op, busy := true, phase := .check, cellCount := n, srcLen := n }
theorem witness_CheckStepTestsTheWindows_encode :
    (checking 0 8).busy = true ∧ (checking 0 8).phase = .check ∧
      ((checking 0 8).srcBase.toNat + (checking 0 8).cellCount.toNat ≤ (checking 0 8).srcSize ∧
        (checking 0 8).dstBase.toNat + ((checking 0 8).cellCount.toNat + 1) / 2 ≤ (checking 0 8).dstSize) ∧
      ¬ ((checking 0 9).srcBase.toNat + (checking 0 9).cellCount.toNat ≤ (checking 0 9).srcSize ∧
        (checking 0 9).dstBase.toNat + ((checking 0 9).cellCount.toNat + 1) / 2 ≤ (checking 0 9).dstSize) := by decide
theorem witness_CheckStepTestsTheWindows_decode :
    (checking 1 4).op = 1 ∧
      ((checking 1 4).srcBase.toNat + (checking 1 4).srcLen.toNat ≤ (checking 1 4).srcSize ∧
        (checking 1 4).dstBase.toNat + (checking 1 4).cellCount.toNat ≤ (checking 1 4).dstSize) ∧
      ¬ ((checking 1 5).srcBase.toNat + (checking 1 5).srcLen.toNat ≤ (checking 1 5).srcSize ∧
        (checking 1 5).dstBase.toNat + (checking 1 5).cellCount.toNat ≤ (checking 1 5).dstSize) := by decide
theorem witness_CheckStepTestsTheWindows_others :
    (checking 2 0).op = 2 ∧ (checking 3 0).op = 3 ∧ 4 ≤ (checking 4 0).op.toNat ∧ 4 ≤ (checking 7 0).op.toNat := by decide
theorem witness_ReservedCommandsEndInIllegalCommand : legalIdle.busy = false ∧ legalIdle.turns = [] := by decide

/-! ### The tile LUT -/

theorem witness_LutEncGivesTheCode :
    legalIdle.busy = false ∧ legalIdle.turns = [] ∧
      ({ legalIdle with lutIn := 4 } : State).lutIn.toNat ≤ 4 ∧ 5 ≤ ({ legalIdle with lutIn := 5 } : State).lutIn.toNat ∧
      5 ≤ ({ legalIdle with lutIn := 15 } : State).lutIn.toNat := by decide
theorem witness_LutDecGivesTheTileId :
    legalIdle.busy = false ∧ legalIdle.turns = [] ∧
      ({ legalIdle with lutIn := 0xC } : State).lutIn = ([0x0, 0x2, 0x4, 0x8, 0xC] : List (BitVec 4)).getD 4 0 ∧
      (0x1 : BitVec 4) ∉ ([0x0, 0x2, 0x4, 0x8, 0xC] : List (BitVec 4)) ∧
      (0xE : BitVec 4) ∉ ([0x0, 0x2, 0x4, 0x8, 0xC] : List (BitVec 4)) := by decide
theorem witness_LutCommandsAreInverse :
    legalIdle.busy = false ∧ legalIdle.turns = [] ∧
      (after (engineLine { legalIdle with op := 2, busy := true, phase := .lut, lutIn := 4 })).map (·.err) = some false := by decide

/-! ### Tokens -/

theorem witness_LitTokensWriteOneTile :
    ({ legalDecoding with out := 17 } : State).db + ({ legalDecoding with out := 17 } : State).out <
      ({ legalDecoding with out := 17 } : State).dstSize := by decide
theorem witness_RunTokensWriteTheirRun :
    15 < 16 ∧ legalDecoding.p + 1 < 2 * legalDecoding.payloadLen ∧ legalDecoding.out + 15 + 3 ≤ legalDecoding.cells ∧
      legalDecoding.db + legalDecoding.out + 15 + 3 ≤ legalDecoding.dstSize := by decide
/-- The head is the last nibble. -/
def headAtEnd : State := { legalDecoding with p := 3 }
/-- One tile too few is left for a run of 18. -/
def noRoom : State := { legalDecoding with out := 1 }
theorem witness_RunTokensThatDoNotFitFail_missing :
    headAtEnd.op = 1 ∧ headAtEnd.phase = .dHead ∧ headAtEnd.p + 1 = 2 * headAtEnd.payloadLen := by decide
theorem witness_RunTokensThatDoNotFitFail_room :
    noRoom.op = 1 ∧ noRoom.phase = .dHead ∧ noRoom.out + 15 + 3 > noRoom.cells := by decide
theorem witness_InvalidHeadsEndTheDecode : legalDecoding.op = 1 ∧ legalDecoding.phase = .dHead := by decide
theorem witness_TokenStepIsItsEngineLines : Inv legalDecoding ∧ legalDecoding.fetchToken = some (.runWall 15) :=
  ⟨legalDecoding_inv, by decide⟩
/-- A DECODE at its tail with `p` nibbles read of a payload of two bytes. -/
def atTail (p : Nat) : State := { legalDecoding with phase := .dTail, out := 18, p := p }
theorem witness_TailStepChecksUnreadBytes :
    (atTail 2).busy = true ∧ (atTail 2).op = 1 ∧ (atTail 2).phase = .dTail ∧ ((atTail 2).p + 1) / 2 < (atTail 2).payloadLen ∧
      (atTail 3).payloadLen ≤ ((atTail 3).p + 1) / 2 := by decide
theorem witness_ErrorCompletionRecordsTheError :
    legalIdle.op ≠ 1 ∧ (checking 1 5).phase = .check ∧ legalDecoding.op = 1 ∧ legalDecoding.phase ≠ .check ∧
      legalDecoding.db ≤ 19 ∧ 19 < legalDecoding.db + legalDecoding.cells ∧ 19 < legalDecoding.dstSize ∧
      ¬ (legalDecoding.db ≤ 1 ∧ 1 < legalDecoding.db + legalDecoding.cells) := by decide

/-! ### Functional forms -/

theorem witness_EncodingNeverExpands : 1 ≤ ([2] : List Nibble).length := by decide
theorem witness_PackingPutsTheHighNibbleFirst : ([3, 0, 4] : List Nibble)[2 * 1]? = some 4 := by decide
theorem witness_LongRunsSplitGreedily : ([2] : List Nibble).head? ≠ some 8 ∧ ([] : List Nibble).head? ≠ some 8 := by decide
theorem witness_DecodeOfEncodedTilesIsTheTiles : ∀ c ∈ w1Cells, validCode c = true := by decide
theorem witness_SuccessfulDecodeHasExactCounts :
    ([2, 0] : List Nibble).length = 2 * 1 ∧ rleDecode [2, 0] 1 1 = .ok ([2], 1) := ⟨rfl, rfl⟩
theorem witness_PadNibbleIsNeverRead :
    ([2, 0] : List Nibble).length = 2 * 1 ∧ ([2, 7] : List Nibble).length = 2 * 1 ∧
      ([2, 7] : List Nibble).take 1 = ([2, 0] : List Nibble).take 1 ∧ rleDecode [2, 0] 1 1 = .ok ([2], 1) :=
  ⟨rfl, rfl, rfl, rfl⟩

/-! ### Commands as a whole, invariants -/

/-- Four Walls in SRC, as codes, whose output window ends where DST does. -/
def fourWalls : State := { legalIdle with dstSize := 2, src := [(0, 2), (1, 2), (2, 2), (3, 2)], srcSize := 4 }
theorem fourWalls_inv : Inv fourWalls where
  sizes := by unfold SizesLegal; decide
  buffers := by unfold BuffersLegal; decide
  status := by unfold StatusLegal; decide
  phaseBusy := by decide
  resultsClear := by decide
  hidden := by unfold HiddenFit; decide
  phase := trivial

theorem witness_EncodeMachineIsItsFunction : Inv legalIdle ∧ legalIdle.busy = false ∧ legalIdle.turns = [] :=
  ⟨legalIdle_inv, by decide, by decide⟩
theorem witness_EncodeWritesThePayload :
    Inv fourWalls ∧ fourWalls.busy = false ∧ fourWalls.turns = [] ∧
      fourWalls.sb + fourWalls.cells ≤ fourWalls.srcSize ∧ fourWalls.db + (fourWalls.cells + 1) / 2 ≤ fourWalls.dstSize ∧
      ([.wall, .wall, .wall, .wall] : List Tile).length = fourWalls.cells ∧
      ∀ (j : Nat) (x : Tile), ([.wall, .wall, .wall, .wall] : List Tile)[j]? = some x →
        fourWalls.srcByte (fourWalls.sb + j) = x.toByte false := by
  refine ⟨fourWalls_inv, by decide, by decide, by decide, by decide, by decide, fun j x h => ?_⟩
  match j, h with
  | 0, h => cases h; decide
  | 1, h => cases h; decide
  | 2, h => cases h; decide
  | 3, h => cases h; decide
/-- The last of four tiles is 0x06, no code. -/
def lastInvalid : State := { fourWalls with src := [(0, 2), (1, 2), (2, 2), (3, 6)] }
theorem lastInvalid_inv : Inv lastInvalid where
  sizes := by unfold SizesLegal; decide
  buffers := by unfold BuffersLegal; decide
  status := by unfold StatusLegal; decide
  phaseBusy := by decide
  resultsClear := by decide
  hidden := by unfold HiddenFit; decide
  phase := trivial
theorem witness_EncodeRejectsTheFirstInvalidTile :
    Inv lastInvalid ∧ lastInvalid.busy = false ∧ lastInvalid.turns = [] ∧
      lastInvalid.sb + lastInvalid.cells ≤ lastInvalid.srcSize ∧
      lastInvalid.db + (lastInvalid.cells + 1) / 2 ≤ lastInvalid.dstSize ∧ 3 < lastInvalid.cells ∧
      inValid false (lastInvalid.srcByte (lastInvalid.sb + 3)) = false ∧
      ∀ l, l < 3 → inValid false (lastInvalid.srcByte (lastInvalid.sb + l)) = true :=
  ⟨lastInvalid_inv, by decide, by decide, by decide, by decide, by decide, by decide, by decide⟩
theorem witness_DecodeMachineIsItsFunction : Inv legalIdle ∧ legalIdle.busy = false ∧ legalIdle.turns = [] :=
  ⟨legalIdle_inv, by decide, by decide⟩
/-- `[12]` is RUN FLOOR, 5; the last byte of DST is the last of the window. -/
def fiveFloors : State := { legalIdle with cellCount := 5, dstSize := 5 }
theorem fiveFloors_inv : Inv fiveFloors where
  sizes := by unfold SizesLegal; decide
  buffers := by unfold BuffersLegal; decide
  status := by unfold StatusLegal; decide
  phaseBusy := by decide
  resultsClear := by decide
  hidden := by unfold HiddenFit; decide
  phase := trivial
theorem witness_DecodeWritesTheTiles :
    Inv fiveFloors ∧ fiveFloors.busy = false ∧ fiveFloors.turns = [] ∧
      fiveFloors.sb + fiveFloors.payloadLen ≤ fiveFloors.srcSize ∧ fiveFloors.db + fiveFloors.cells ≤ fiveFloors.dstSize ∧
      rleDecode (unpackBytes (fiveFloors.srcBytes fiveFloors.sb fiveFloors.payloadLen)) fiveFloors.payloadLen
        fiveFloors.cells = .ok (([.floor, .floor, .floor, .floor, .floor] : List Tile).map Tile.code, 2) :=
  ⟨fiveFloors_inv, by decide, by decide, by decide, by decide, rfl⟩
theorem witness_DecodeRestoresAnEncodedPayload :
    Inv fiveFloors ∧ fiveFloors.busy = false ∧ fiveFloors.turns = [] ∧
      fiveFloors.sb + fiveFloors.payloadLen ≤ fiveFloors.srcSize ∧ fiveFloors.db + fiveFloors.cells ≤ fiveFloors.dstSize ∧
      fiveFloors.srcBytes fiveFloors.sb fiveFloors.payloadLen =
        pack (rleEncode (([.floor, .floor, .floor, .floor, .floor] : List Tile).map Tile.code)) ∧
      fiveFloors.cells = ([.floor, .floor, .floor, .floor, .floor] : List Tile).length :=
  ⟨fiveFloors_inv, by decide, by decide, by decide, by decide, by decide, by decide⟩
theorem witness_RunningCommandCompletes : Inv legalDecoding ∧ legalDecoding.busy = true := ⟨legalDecoding_inv, by decide⟩
theorem witness_EveryStepKeepsTheInvariant : Inv legalIdle ∧ step legalIdle = .next legalIdle := ⟨legalIdle_inv, rfl⟩
theorem witness_EveryStepKeepsTheInvariant_token :
    Inv legalDecoding ∧ (after (step legalDecoding)).isSome = true := ⟨legalDecoding_inv, by decide⟩
theorem witness_LegalStatesNeverStop : Inv legalDecoding := legalDecoding_inv
theorem witness_StatusKeepsItsFourCombinations : StatusLegal legalDecoding ∧ (after (step legalDecoding)).isSome = true :=
  ⟨legalDecoding_inv.status, by decide⟩
theorem witness_EngineWritesOnlyItsOutputWindow :
    Inv legalDecoding ∧ (after (engineLine legalDecoding)).isSome = true ∧
      ¬ (legalDecoding.db ≤ 1 ∧ 1 < legalDecoding.db + legalDecoding.outputLen) := ⟨legalDecoding_inv, by decide, by decide⟩
/-- Other bytes from SRC[2] on. -/
def otherBytes : Memory := [(0, 0x3F), (1, 0x20), (2, 0xFF)]
theorem witness_EngineReadsOnlyItsInputWindow :
    Inv legalDecoding ∧ (after (engineLine legalDecoding)).isSome = true ∧
      ∀ a, legalDecoding.sb ≤ a → a < legalDecoding.sb + legalDecoding.inputLen →
        ({ legalDecoding with src := otherBytes } : State).srcByte a = legalDecoding.srcByte a := by
  refine ⟨legalDecoding_inv, by decide, fun a _ h => ?_⟩
  have h2 : a < 2 := h
  interval_cases a <;> decide
theorem witness_HostAccessWhileBusyChangesNothing :
    ∃ s : State, s.busy = true ∧ s.turns = .host :: [] ∧ s.inputs = .regRead 1 :: [] ∧ PortAccess.resets (.regRead 1) = false :=
  ⟨{ legalDecoding with turns := [.host], inputs := [.regRead 1] }, by decide⟩
theorem witness_HostAccessWhileBusyChangesNothing_wait :
    ∃ s : State, s.busy = true ∧ s.turns = .host :: [] ∧ s.inputs = .waitIdle :: [] ∧ PortAccess.resets .waitIdle = false :=
  ⟨{ legalDecoding with turns := [.host], inputs := [.waitIdle] }, by decide⟩
theorem witness_IdleBufferAccess :
    legalIdle.busy = false ∧ (7 : BitVec 16).toNat < legalIdle.srcSize ∧ legalIdle.srcSize ≤ (8 : BitVec 16).toNat ∧
      (3 : BitVec 16).toNat < legalIdle.dstSize ∧ legalIdle.dstSize ≤ (4 : BitVec 16).toNat := by decide
theorem witness_BuffersStayCanonical :
    legalDecoding.src.wf = true ∧ legalDecoding.dst.wf = true ∧ (after (step legalDecoding)).isSome = true := by decide

/-! ### The container -/

/-- The example level of the source (95 W1). -/
def w1Level : Level :=
  { width := 5, height := 3, playerX := 1, playerY := 1
    cells := [.wall, .wall, .wall, .wall, .wall, .wall, .floor, .floor, .goal, .wall, .wall, .wall, .wall, .wall, .wall] }
theorem witness_OffsetTableSumsTheLevels :
    buildContainer [w1Level] [] [] = .ok ([0x05, 0x03, 0x00, 0x04, 0x01, 0x01, 0x33, 0x00, 0x43, 0x30], [0]) := rfl
theorem witness_ContainerReadsBack :
    (∀ l ∈ [w1Level], l.ok = true) ∧ [w1Level][0]? = some w1Level := by decide

end Sys2Proof.Tests
end

/-! SUPPORT. What a host register write does (10_state.md R34): first the command words written to CTRL, row by row of
30_encoding.md R82, then the other registers, index by index. -/

namespace Sys2Proof.Machine

/-! ### Command words -/

theorem decodeCommand_of_bit15 (v : Word) (h15 : v.getLsbD 15 = true) : decodeCommand v = .srst := by
  rw [decodeCommand, if_pos h15]

theorem decodeCommand_of_not_start (v : Word) (h15 : v.getLsbD 15 = false) (h0 : v.getLsbD 0 = false) :
    decodeCommand v = .setcfg (opField v) (mapField v) := by
  simp only [decodeCommand, h15, h0, Bool.false_eq_true, if_false]

/-- OP has three bits, so the eight starting rows of R82 cover every word with START set and SRST clear. -/
theorem decodeCommand_mem_startCommands (v : Word) (h15 : v.getLsbD 15 = false) (h0 : v.getLsbD 0 = true) :
    (decodeCommand v, opField v) ∈ startCommands (mapField v) := by
  simp only [decodeCommand, h15, h0, Bool.false_eq_true, if_false, if_true]
  generalize mapField v = map
  generalize opField v = op
  revert op map
  decide

/-- Every starting command is the same write of R170, with its own OP. -/
theorem exec_startCommands (map : Bool) (s : State) : ∀ x ∈ startCommands map, exec x.1 s = .next (start x.2 map s) := by
  simp only [startCommands, List.forall_mem_cons]
  exact ⟨rfl, rfl, rfl, rfl, rfl, rfl, rfl, rfl, fun _ h => nomatch h⟩

theorem regWrite_ctrl_srst (v : Word) (s : State) (h15 : v.getLsbD 15 = true) :
    regWrite 0 v s = .next (softReset s) := by
  rw [regWrite_ctrl, decodeCommand_of_bit15 v h15]
  rfl

theorem regWrite_ctrl_setcfg (v : Word) (s : State) (h15 : v.getLsbD 15 = false) (h0 : v.getLsbD 0 = false) :
    regWrite 0 v s = .next (if s.busy then s else { s with op := opField v, map := mapField v }) := by
  rw [regWrite_ctrl, decodeCommand_of_not_start v h15 h0]
  rfl

theorem regWrite_ctrl_start (v : Word) (s : State) (h15 : v.getLsbD 15 = false) (h0 : v.getLsbD 0 = true) :
    regWrite 0 v s = .next (start (opField v) (mapField v) s) := by
  rw [regWrite_ctrl]
  exact exec_startCommands _ s _ (decodeCommand_mem_startCommands v h15 h0)

/-- R175 at CTRL: a busy block ignores SETCFG and every starting command alike. -/
theorem regWrite_ctrl_busy (v : Word) (s : State) (hb : s.busy = true) (h15 : v.getLsbD 15 = false) :
    regWrite 0 v s = .next s := by
  cases h0 : v.getLsbD 0 with
  | false => rw [regWrite_ctrl_setcfg v s h15 h0, if_pos hb]
  | true => rw [regWrite_ctrl_start v s h15 h0, start_busy _ _ s hb]

/-! ### The other registers -/

theorem regWrite_other_busy (idx : BitVec 5) (v : Word) (s : State) (hb : s.busy = true) (h : idx ≠ 0) :
    regWrite idx v s = .next s := by
  rw [regWrite_other idx v s h, writeReg_busy idx v s hb]

section
variable (v : Word) (s : State) (hb : s.busy = false)
include hb

theorem regWrite_cellCount : regWrite 2 v s = .next { s with cellCount := v.extractLsb' 0 16 } := by
  simp [regWrite_other, writeReg, hb, BitVec.setWidth_eq_extractLsb']

theorem regWrite_srcBase : regWrite 3 v s = .next { s with srcBase := v.extractLsb' 0 16 } := by
  simp [regWrite_other, writeReg, hb, BitVec.setWidth_eq_extractLsb']

theorem regWrite_srcLen : regWrite 4 v s = .next { s with srcLen := v.extractLsb' 0 16 } := by
  simp [regWrite_other, writeReg, hb, BitVec.setWidth_eq_extractLsb']

theorem regWrite_dstBase : regWrite 5 v s = .next { s with dstBase := v.extractLsb' 0 16 } := by
  simp [regWrite_other, writeReg, hb, BitVec.setWidth_eq_extractLsb']

theorem regWrite_lutIn : regWrite 9 v s = .next { s with lutIn := v.extractLsb' 0 4 } := by
  simp [regWrite_other, writeReg, hb, BitVec.setWidth_eq_extractLsb']

end

/-- Read-only registers and reserved indices (R33): no write reaches them, busy or not. -/
theorem writeReg_unwritable (idx : BitVec 5) (v : Word) (s : State)
    (h : idx ∉ ([0, 2, 3, 4, 5, 9] : List (BitVec 5))) : writeReg idx v s = s := by
  simp only [List.mem_cons, List.not_mem_nil, or_false, not_or, ← BitVec.toNat_inj] at h
  obtain ⟨-, h2, h3, h4, h5, h9⟩ := h
  unfold writeReg
  split
  · rfl
  · split
    case h_6 => rfl
    all_goals contradiction

theorem regWrite_unwritable (idx : BitVec 5) (v : Word) (s : State)
    (h : idx ∉ ([0, 2, 3, 4, 5, 9] : List (BitVec 5))) : regWrite idx v s = .next s := by
  have h0 : idx ≠ 0 := fun h0 => h (h0 ▸ List.mem_cons_self)
  rw [regWrite_other idx v s h0, writeReg_unwritable idx v s h]

/-- Settles O15: the soft reset, the busy block, and then each index of an idle block by its own write lemma. -/
theorem hostRegisterWrite : Obligations.HostRegisterWrite := by
  intro s idx v
  refine ⟨?srst, ?busy, fun hb => ⟨?setcfg, ?start, ?cellCount, ?srcBase, ?srcLen, ?dstBase, ?lutIn, ?unwritable⟩⟩
  case srst => rintro rfl h15; exact regWrite_ctrl_srst v s h15
  case busy =>
    intro hb hv
    by_cases h : idx = 0
    · subst h
      exact regWrite_ctrl_busy v s hb (hv.resolve_left (· rfl))
    · exact regWrite_other_busy idx v s hb h
  case setcfg =>
    rintro rfl h15 h0
    rw [regWrite_ctrl_setcfg v s h15 h0, if_neg (by simp [hb])]
    rfl
  case start =>
    rintro rfl h15 h0
    rw [regWrite_ctrl_start v s h15 h0, start_idle _ _ s hb]
    rfl
  case cellCount => rintro rfl; exact regWrite_cellCount v s hb
  case srcBase => rintro rfl; exact regWrite_srcBase v s hb
  case srcLen => rintro rfl; exact regWrite_srcLen v s hb
  case dstBase => rintro rfl; exact regWrite_dstBase v s hb
  case lutIn => rintro rfl; exact regWrite_lutIn v s hb
  case unwritable => exact regWrite_unwritable idx v s

end Sys2Proof.Machine

/-! SUPPORT. The LUT commands LUT_ENC and LUT_DEC (40_tile_lut.md R103, R104): the steps of a busy engine, the two lines
of R106, and the state they end in. -/

namespace Sys2Proof.Machine

/-! ### Runs and the default turn of a busy engine -/

theorem run_succ_of_step {s t : State} (k : Nat) (h : step s = .next t) :
    Host.Core.run Sys2Proof.core (k + 1) s = Host.Core.run Sys2Proof.core k t := by
  have hstep : Sys2Proof.core.step s = .next t := h
  simp only [Host.Core.run, hstep]

theorem run_two_of_steps {s t u : State} (h : step s = .next t) (h' : step t = .next u) :
    Host.Core.run Sys2Proof.core 2 s = .next u :=
  (run_succ_of_step 1 h).trans (run_succ_of_step 0 h')

/-- Tokens are fetched at D_HEAD only (R143). -/
theorem fetchToken_of_phase_ne_dHead (s : State) (h : s.phase ≠ .dHead) : s.fetchToken = none := by
  simp [State.fetchToken, h]

/-- With no turn listed a busy engine moves, and where there is no token it takes the line of its phase (log 1). -/
theorem step_eq_phaseLine (s : State) (hb : s.busy = true) (ht : s.turns = []) (hp : s.phase ≠ .dHead) :
    step s = phaseLine s := by
  have hturn : step s = tokenTurn s := by simp [step, ht, State.defaultTurn, hb, runTurn]
  rw [hturn, tokenTurn_none s (fetchToken_of_phase_ne_dHead s hp), engineLine_busy s hb]

/-! ### The two lines of a LUT command (R106) -/

/-- What the LUT answers to LUT_IN: a code under OP 2, an id otherwise; `none` is InvalidTileCode. -/
def lutResult (op : BitVec 3) (x : Nibble) : Option Nibble :=
  if op = 2 then (tileOfId x).map Tile.code else (tileOfCode x).map Tile.id

/-- The state a LUT command started in `s` ends in, with the LUT's answer. -/
def State.lutEnd (s : State) (op : BitVec 3) (map : Bool) (result : Option Nibble) : State :=
  { s with
    op := op, map := map, busy := false, done := true, err := result.isNone
    errCode := if result.isNone then 1 else 0
    phase := .idle, outCount := 0, nibCount := 0, errPos := 0, lutOut := result.getD 0 }

theorem lutEnd_statusWord_some (s : State) (op : BitVec 3) (map : Bool) (v : Nibble) :
    (s.lutEnd op map (some v)).statusWord = 0x00000002 := by
  simp [State.statusWord, State.lutEnd, flagAt]

theorem lutEnd_statusWord_none (s : State) (op : BitVec 3) (map : Bool) :
    (s.lutEnd op map none).statusWord = 0x00000016 := by
  simp [State.statusWord, State.lutEnd, flagAt]

section
variable (s : State) (hop : s.op = 2 ∨ s.op = 3)
include hop

theorem command_of_lut_op : s.command = .lutEnc ∨ s.command = .lutDec := by
  rcases hop with h | h
  · exact .inl (by rw [State.command, h]; rfl)
  · exact .inr (by rw [State.command, h]; rfl)

theorem isLut_of_lut_op : s.isLut = true := by
  rcases command_of_lut_op s hop with h | h <;> simp [State.isLut, h]

theorem isDecoding_of_lut_op : s.isDecoding = false := by
  rcases command_of_lut_op s hop with h | h <;> simp [State.isDecoding, h]

/-- CHECK accepts a LUT command whatever the operands are: it has no window (R57). -/
theorem checkLine_of_lut_op : checkLine s = .next { s with phase := .lut } := by
  rcases command_of_lut_op s hop with h | h <;> simp [checkLine, h]

theorem lutLine_of_lut_op : lutLine s = finishLut (lutResult s.op s.lutIn) s := by
  rcases hop with h | h
  · have hc : s.command = .lutEnc := by rw [State.command, h]; rfl
    simp [lutLine, hc, lutResult, h]
  · have hc : s.command = .lutDec := by rw [State.command, h]; rfl
    simp [lutLine, hc, lutResult, h]

section
variable (ho : s.outCount = 0) (hn : s.nibCount = 0) (hpos : s.errPos = 0)
include ho hn hpos

/-- With the results cleared by START, both completions of a LUT command are `lutEnd`. -/
theorem finishLut_of_lut_op (result : Option Nibble) : finishLut result s = .next (s.lutEnd s.op s.map result) := by
  cases result with
  | some v => simp [finishLut, complete, State.lutEnd, ho, hn, hpos]
  | none =>
    rw [finishLut, raiseError_notDecoding _ _ s (isDecoding_of_lut_op s hop)]
    simp [State.recordError, isLut_of_lut_op s hop, State.lutEnd, ErrorName.code]

theorem step_of_lut_phase (hb : s.busy = true) (ht : s.turns = []) (hp : s.phase = .lut) :
    step s = .next (s.lutEnd s.op s.map (lutResult s.op s.lutIn)) :=
  calc step s = phaseLine s := step_eq_phaseLine s hb ht (by simp [hp])
    _ = lutLine s := by simp only [phaseLine, hp]
    _ = finishLut (lutResult s.op s.lutIn) s := lutLine_of_lut_op s hop
    _ = _ := finishLut_of_lut_op s hop ho hn hpos _

end

theorem step_of_lut_check (hb : s.busy = true) (ht : s.turns = []) (hp : s.phase = .check) :
    step s = .next { s with phase := .lut } :=
  calc step s = phaseLine s := step_eq_phaseLine s hb ht (by simp [hp])
    _ = checkLine s := by simp only [phaseLine, hp]
    _ = _ := checkLine_of_lut_op s hop

end

/-- R106: after its START a LUT command takes exactly the lines CHECK and LUT, and ends in `lutEnd`. -/
theorem run_two_of_lut_start (s : State) (op : BitVec 3) (map : Bool) (hop : op = 2 ∨ op = 3) (hb : s.busy = false)
    (ht : s.turns = []) :
    Host.Core.run Sys2Proof.core 2 (start op map s) = .next (s.lutEnd op map (lutResult op s.lutIn)) := by
  rw [start_idle op map s hb]
  exact run_two_of_steps (step_of_lut_check _ hop rfl ht rfl) (step_of_lut_phase _ hop rfl rfl rfl rfl ht rfl)

/-! ### The LUT's tables (R102): the id is the place of the code in the list of codes -/

/-- CODE_OF (R102). -/
abbrev tileCodes : List (BitVec 4) := [0x0, 0x2, 0x4, 0x8, 0xC]

theorem lutResult_enc_of_le : ∀ d : Nibble, d.toNat ≤ 4 → lutResult 2 d = some (tileCodes.getD d.toNat 0) := by decide

theorem lutResult_enc_of_ge : ∀ d : Nibble, 5 ≤ d.toNat → lutResult 2 d = none := by decide

theorem lutResult_dec_code : ∀ (c : Nibble) (d : Fin 5), c = tileCodes.getD d.val 0 →
    lutResult 3 c = some (BitVec.ofNat 4 d.val) := by decide

theorem lutResult_dec_of_notMem : ∀ c : Nibble, c ∉ tileCodes → lutResult 3 c = none := by decide

/-- Settles O20: the two lines of R106, and the LUT's table at an id and past the last one. -/
theorem lutEncGivesTheCode : Obligations.LutEncGivesTheCode := by
  intro s map hb ht
  refine ⟨start 2 map s, _, rfl, run_two_of_lut_start s 2 map (.inl rfl) hb ht, fun hvalid => ?_, fun hinvalid => ?_⟩
  · rw [lutResult_enc_of_le s.lutIn hvalid]
    exact ⟨lutEnd_statusWord_some .., rfl⟩
  · rw [lutResult_enc_of_ge s.lutIn hinvalid]
    exact ⟨lutEnd_statusWord_none .., rfl⟩

/-- Settles O21: the two lines of R106, and the LUT's table at a code and outside the five. -/
theorem lutDecGivesTheTileId : Obligations.LutDecGivesTheTileId := by
  intro s map hb ht
  refine ⟨start 3 map s, _, rfl, run_two_of_lut_start s 3 map (.inr rfl) hb ht, fun d hcode => ?_, fun hinvalid => ?_⟩
  · rw [lutResult_dec_code s.lutIn d hcode]
    exact ⟨lutEnd_statusWord_some .., rfl⟩
  · rw [lutResult_dec_of_notMem s.lutIn hinvalid]
    exact ⟨lutEnd_statusWord_none .., rfl⟩

end Sys2Proof.Machine

/-! SUPPORT. The packing of nibbles into bytes (41_rle_encode.md R127; 20_memory.md R54): two nibbles to a byte, so each
fact follows the two-nibble recursion of `pack`. -/

namespace Sys2Proof

@[simp] theorem hiNibble_joinNibbles (h l : Nibble) : hiNibble (joinNibbles h l) = h := by
  revert h l
  decide

@[simp] theorem loNibble_joinNibbles (h l : Nibble) : loNibble (joinNibbles h l) = l := by
  revert h l
  decide

/-- ceil(K/2) bytes for K nibbles. -/
theorem length_pack : ∀ nib : List Nibble, (pack nib).length = (nib.length + 1) / 2
  | [] => rfl
  | [_] => by simp [pack]
  | _ :: _ :: rest => by
    simp only [pack, List.length_cons, length_pack rest]
    omega

theorem getElem?_pack : ∀ (nib : List Nibble) (j : Nat) (h : Nibble), nib[2 * j]? = some h →
    (pack nib)[j]? = some (joinNibbles h (nib[2 * j + 1]?.getD 0))
  | [], _, _, hj => by simp at hj
  | [_], 0, _, hj => by cases hj; rfl
  | [_], _ + 1, _, hj => nomatch hj
  | _ :: _ :: _, 0, _, hj => by cases hj; rfl
  | _ :: _ :: rest, j + 1, h, hj => getElem?_pack rest j h hj

/-- The pad nibble 0x0 is the only thing unpacking adds. -/
theorem unpackBytes_pack : ∀ nib : List Nibble,
    unpackBytes (pack nib) = nib ++ (if nib.length % 2 = 1 then [0] else [])
  | [] => rfl
  | [h] => by simp [pack, unpackBytes]
  | h :: l :: rest => by
    have hparity : (h :: l :: rest).length % 2 = rest.length % 2 := Nat.add_mod_right rest.length 2
    simp only [pack, unpackBytes, hiNibble_joinNibbles, loNibble_joinNibbles, unpackBytes_pack rest, hparity,
      List.cons_append]

/-- Settles O32: the length, each byte, and the nibbles with their pad. -/
theorem packingPutsTheHighNibbleFirst : Obligations.PackingPutsTheHighNibbleFirst :=
  fun nib => ⟨length_pack nib, getElem?_pack nib, unpackBytes_pack nib⟩

end Sys2Proof

/-! SUPPORT. How an ENCODE rejects its input (41_rle_encode.md R122, R129): the CHECK line, then E_VAL tile by tile up to
the first byte that is no tile, before the packer has written anything. -/

namespace Sys2Proof.Machine

/-- As many steps as there are links in a chain of states. -/
theorem run_add_of_chain (f : Nat → State) (n k : Nat) (h : ∀ l, l < n → step (f l) = .next (f (l + 1))) :
    Host.Core.run Sys2Proof.core (n + k) (f 0) = Host.Core.run Sys2Proof.core k (f n) := by
  induction n generalizing k with
  | zero => rw [Nat.zero_add]
  | succ n ih =>
    calc Host.Core.run Sys2Proof.core (n + 1 + k) (f 0)
        = Host.Core.run Sys2Proof.core (n + (k + 1)) (f 0) := by rw [Nat.add_right_comm, Nat.add_assoc]
      _ = Host.Core.run Sys2Proof.core (k + 1) (f n) := ih (k + 1) fun l hl => h l (Nat.lt_succ_of_lt hl)
      _ = Host.Core.run Sys2Proof.core k (f (n + 1)) := run_succ_of_step k (h n (Nat.lt_succ_self n))

/-! ### An ENCODE's CHECK and its error completion -/

section
variable (s : State) (hop : s.op = 0)
include hop

theorem command_of_encode_op : s.command = .encode := by
  rw [State.command, hop]
  rfl

theorem windowsFit_of_encode_op :
    s.windowsFit = true ↔ s.sb + s.cells ≤ s.srcSize ∧ s.db + (s.cells + 1) / 2 ≤ s.dstSize := by
  simp [State.windowsFit, State.inputLen, State.outputLen, command_of_encode_op s hop, halfUp]

theorem checkLine_of_encode_op (hfit : s.windowsFit = true) : checkLine s = .next { s with i := 0, phase := .eVal } := by
  simp only [checkLine, command_of_encode_op s hop, hfit, if_true]

/-- ENCODE has no UNSPECIFIED window and no LUT result (R183): its error writes the registers only. -/
theorem raiseError_of_encode_op (e : ErrorName) (pos : Nat) :
    raiseError e pos s = { s with
      phase := .idle, busy := false, done := true, err := true, errCode := e.code
      errPos := BitVec.ofNat 17 pos, outCount := 0, nibCount := 0 } := by
  have hcmd : s.command = .encode := command_of_encode_op s hop
  rw [raiseError_notDecoding e pos s (by simp [State.isDecoding, hcmd])]
  simp [State.recordError, State.isLut, hcmd]

end

/-! ### E_VAL -/

section
variable (s : State) (hi : s.i < s.cells) (hinside : s.sb + s.i < s.srcSize)
include hi hinside

theorem eValLine_valid (hv : inValid s.map (s.srcByte (s.sb + s.i)) = true) :
    eValLine s = .next { s with i := s.i + 1 } := by
  rw [eValLine, if_neg (Nat.ne_of_lt hi), memRead_eq_next]
  exact ⟨hinside, if_pos hv⟩

theorem eValLine_invalid (hv : inValid s.map (s.srcByte (s.sb + s.i)) = false) :
    eValLine s = .next (raiseError .invalidTileCode s.i s) := by
  rw [eValLine, if_neg (Nat.ne_of_lt hi), memRead_eq_next]
  exact ⟨hinside, if_neg (Bool.eq_false_iff.mp hv)⟩

end

/-! ### The steps of an ENCODE that is rejected -/

/-- The state at E_VAL when the first `l` tiles have been accepted. -/
def State.validated (s : State) (l : Nat) : State := { s with i := l, phase := .eVal }

section
variable (s : State) (hb : s.busy = true) (ht : s.turns = [])
include hb ht

theorem step_of_encode_check (hop : s.op = 0) (hp : s.phase = .check) (hfit : s.windowsFit = true) :
    step s = .next (s.validated 0) :=
  calc step s = phaseLine s := step_eq_phaseLine s hb ht (by simp [hp])
    _ = checkLine s := by simp only [phaseLine, hp]
    _ = .next (s.validated 0) := checkLine_of_encode_op s hop hfit

theorem step_of_eVal (hp : s.phase = .eVal) : step s = eValLine s :=
  calc step s = phaseLine s := step_eq_phaseLine s hb ht (by simp [hp])
    _ = eValLine s := by simp only [phaseLine, hp]

section
variable (hsrc : s.sb + s.cells ≤ s.srcSize)
include hsrc

theorem step_validated (l : Nat) (hl : l < s.cells) (hv : inValid s.map (s.srcByte (s.sb + l)) = true) :
    step (s.validated l) = .next (s.validated (l + 1)) :=
  have hinside : s.sb + l < s.srcSize := by omega
  (step_of_eVal (s.validated l) hb ht rfl).trans (eValLine_valid (s.validated l) hl hinside hv)

theorem step_validated_invalid (l : Nat) (hl : l < s.cells) (hv : inValid s.map (s.srcByte (s.sb + l)) = false) :
    step (s.validated l) = .next (raiseError .invalidTileCode l (s.validated l)) :=
  have hinside : s.sb + l < s.srcSize := by omega
  (step_of_eVal (s.validated l) hb ht rfl).trans (eValLine_invalid (s.validated l) hl hinside hv)

end

/-- CHECK, one step for each valid tile, and the step that finds tile `j` invalid. -/
theorem run_encode_to_invalid (hop : s.op = 0) (hp : s.phase = .check) (hfit : s.windowsFit = true) (j : Nat)
    (hj : j < s.cells) (hbad : inValid s.map (s.srcByte (s.sb + j)) = false)
    (hv : ∀ l, l < j → inValid s.map (s.srcByte (s.sb + l)) = true) :
    Host.Core.run Sys2Proof.core (j + 1 + 1) s = .next (raiseError .invalidTileCode j (s.validated j)) := by
  obtain ⟨hsrc, -⟩ := (windowsFit_of_encode_op s hop).mp hfit
  calc Host.Core.run Sys2Proof.core (j + 1 + 1) s
      = Host.Core.run Sys2Proof.core (j + 1) (s.validated 0) :=
        run_succ_of_step (j + 1) (step_of_encode_check s hb ht hop hp hfit)
    _ = Host.Core.run Sys2Proof.core 1 (s.validated j) :=
        run_add_of_chain s.validated j 1 fun l hl => step_validated s hb ht hsrc l (hl.trans hj) (hv l hl)
    _ = .next (raiseError .invalidTileCode j (s.validated j)) :=
        run_succ_of_step 0 (step_validated_invalid s hb ht hsrc j hj hbad)

end

/-- The state in which an ENCODE started in `s` ends when tile `j` is the first invalid one. -/
def State.encodeRejected (s : State) (map : Bool) (j : Nat) : State :=
  { s with
    op := 0, map := map, busy := false, done := true, err := true, errCode := 1
    phase := .idle, i := j, outCount := 0, nibCount := 0, errPos := BitVec.ofNat 17 j }

theorem encodeRejected_statusWord (s : State) (map : Bool) (j : Nat) :
    (s.encodeRejected map j).statusWord = 0x00000016 := by
  simp [State.statusWord, State.encodeRejected, flagAt]

/-- An index below N fits the 17 bits of ERR_POS (R30). -/
theorem encodeRejected_errPos (s : State) (map : Bool) (j : Nat) (hj : j < s.cells) :
    (s.encodeRejected map j).errPos.toNat = j := by
  have hcells : s.cells < 2 ^ 16 := s.cellCount.isLt
  exact Nat.mod_eq_of_lt (by omega)

/-- R129: CHECK, `j` valid tiles and the invalid one are all that an ENCODE started in `s` goes through. -/
theorem run_encode_rejected (s : State) (map : Bool) (hb : s.busy = false) (ht : s.turns = [])
    (hsrc : s.sb + s.cells ≤ s.srcSize) (hdst : s.db + (s.cells + 1) / 2 ≤ s.dstSize) (j : Nat) (hj : j < s.cells)
    (hbad : inValid map (s.srcByte (s.sb + j)) = false)
    (hv : ∀ l, l < j → inValid map (s.srcByte (s.sb + l)) = true) :
    Host.Core.run Sys2Proof.core (j + 1 + 1) (start 0 map s) = .next (s.encodeRejected map j) := by
  rw [start_idle 0 map s hb]
  refine Eq.trans (run_encode_to_invalid _ rfl ?turns rfl rfl ?fit j hj ?bad ?valid) ?error
  case turns => exact ht
  case fit => exact (windowsFit_of_encode_op _ rfl).mpr ⟨hsrc, hdst⟩
  case bad => exact hbad
  case valid => exact hv
  case error => exact congrArg _ (raiseError_of_encode_op _ rfl .invalidTileCode j)

/-- Settles O39: E_VAL stops at the least invalid tile, and the error of an ENCODE writes no byte. -/
theorem encodeRejectsTheFirstInvalidTile : Obligations.EncodeRejectsTheFirstInvalidTile := by
  intro s map j _ hb ht hsrc hdst hj hbad hv
  exact ⟨start 0 map s, s.encodeRejected map j, j + 1 + 1, rfl,
    run_encode_rejected s map hb ht hsrc hdst j hj hbad hv, encodeRejected_statusWord s map j,
    encodeRejected_errPos s map j hj, rfl, rfl, rfl, fun _ => rfl, fun _ => rfl⟩

end Sys2Proof.Machine

/-! SUPPORT. Command control (43_control.md): which commands a write to CTRL can start and what a busy block ignores, and
the CHECK line that every started command takes first. -/

namespace Sys2Proof.Machine

/-! ### The commands -/

/-- A command word stands for SRST, SETCFG or a starting command; every other instruction is a payload token (R80). -/
theorem command_of_encode_eq_word (i : Instr) (v : Word) (h : encode i = .word v) :
    i = .srst ∨ (∃ op map, i = .setcfg op map) ∨ ∃ op map, (i, op) ∈ startCommands map := by
  cases i with
  | srst => exact .inl rfl
  | setcfg op map => exact .inr (.inl ⟨op, map, rfl⟩)
  | encode map => exact .inr (.inr ⟨0, map, by simp [startCommands]⟩)
  | decode map => exact .inr (.inr ⟨1, map, by simp [startCommands]⟩)
  | lutEnc map => exact .inr (.inr ⟨2, map, by simp [startCommands]⟩)
  | lutDec map => exact .inr (.inr ⟨3, map, by simp [startCommands]⟩)
  | rsvdOp4 map => exact .inr (.inr ⟨4, map, by simp [startCommands]⟩)
  | rsvdOp5 map => exact .inr (.inr ⟨5, map, by simp [startCommands]⟩)
  | rsvdOp6 map => exact .inr (.inr ⟨6, map, by simp [startCommands]⟩)
  | rsvdOp7 map => exact .inr (.inr ⟨7, map, by simp [startCommands]⟩)
  | _ => nomatch h

theorem exec_setcfg (op : BitVec 3) (map : Bool) (s : State) :
    exec (.setcfg op map) s = .next (if s.busy then s else { s with op := op, map := map }) := rfl

theorem start_statusWord (op : BitVec 3) (map : Bool) (s : State) (hb : s.busy = false) :
    (start op map s).statusWord = 0x00000001 := by
  rw [start_idle op map s hb]
  simp [State.statusWord, flagAt]

theorem softReset_busy (s : State) : (softReset s).busy = false := by
  cases hb : s.busy <;> simp [softReset, hb]

theorem softReset_phase (s : State) : (softReset s).phase = .idle := by
  cases hb : s.busy <;> simp [softReset, hb]

/-- R175: of the commands, a busy block runs SRST alone. -/
theorem exec_command_busy (i : Instr) (v : Word) (s : State) (hb : s.busy = true) (hi : i ≠ .srst)
    (h : encode i = .word v) : exec i s = .next s := by
  rcases command_of_encode_eq_word i v h with hsrst | ⟨op, map, rfl⟩ | ⟨op, map, hmem⟩
  · exact absurd hsrst hi
  · rw [exec_setcfg, if_pos hb]
  · rw [exec_startCommands map s _ hmem, start_busy op map s hb]

/-- Settles O11: all eight starting commands are `start`, idle or busy; a word of R82 is decoded by its bits 15 and 0. -/
theorem startCommandsAreAccepted : Obligations.StartCommandsAreAccepted := by
  refine ⟨fun s map hb x hx => ?idle, fun s map hb x hx => ?busy, decodeCommand_of_bit15, fun v h15 h0 => ?word⟩
  case idle =>
    exact ⟨start x.2 map s, exec_startCommands map s x hx, start_statusWord x.2 map s hb, start_idle x.2 map s hb⟩
  case busy => rw [exec_startCommands map s x hx, start_busy x.2 map s hb]
  case word => exact ⟨decodeCommand_mem_startCommands v h15 h0, rfl⟩

/-- Settles O12: by the instruction and by every word that decodes to it. -/
theorem setcfgStoresOpAndMap : Obligations.SetcfgStoresOpAndMap := by
  intro s op map hb
  have hidle : ¬ s.busy = true := Bool.eq_false_iff.mp hb
  refine ⟨?instruction, fun v h15 h0 => ?word⟩
  case instruction => rw [exec_setcfg, if_neg hidle]
  case word =>
    rw [regWrite_ctrl_setcfg v s h15 h0, if_neg hidle]
    rfl

/-- Settles O14: the write to CTRL, the write to another register, the soft reset and the command as an instruction. -/
theorem onlySoftResetActsWhileBusy : Obligations.OnlySoftResetActsWhileBusy := by
  intro s hb
  refine ⟨fun v => regWrite_ctrl_busy v s hb, fun idx v => regWrite_other_busy idx v s hb, fun v h15 => ?srst,
    fun i v => exec_command_busy i v s hb⟩
  case srst => exact ⟨softReset s, regWrite_ctrl_srst v s h15, softReset_busy s, softReset_phase s⟩

/-! ### CHECK (R171) -/

theorem engineLine_of_check (s : State) (hb : s.busy = true) (hp : s.phase = .check) : engineLine s = checkLine s := by
  rw [engineLine_busy s hb]
  simp only [phaseLine, hp]

theorem isDecoding_of_check (s : State) (hp : s.phase = .check) : s.isDecoding = false := by
  cases hc : s.command <;> simp [State.isDecoding, hc, hp]

/-- Where no LUT command fails, an error at CHECK is only recorded: no window is UNSPECIFIED yet (R183). -/
theorem raiseError_of_check (e : ErrorName) (s : State) (hp : s.phase = .check) (hlut : s.isLut = false) :
    raiseError e 0 s = { s with
      phase := .idle, busy := false, done := true, err := true, errCode := e.code
      errPos := 0, outCount := 0, nibCount := 0 } := by
  rw [raiseError_notDecoding e 0 s (isDecoding_of_check s hp)]
  simp [State.recordError, hlut]

section
variable (s : State) (hop : s.op = 1)
include hop

theorem command_of_decode_op : s.command = .decode := by
  rw [State.command, hop]
  rfl

theorem windowsFit_of_decode_op :
    s.windowsFit = true ↔ s.sb + s.payloadLen ≤ s.srcSize ∧ s.db + s.cells ≤ s.dstSize := by
  simp [State.windowsFit, State.inputLen, State.outputLen, command_of_decode_op s hop]

theorem checkLine_of_decode_op (hfit : s.windowsFit = true) :
    checkLine s = .next { s with p := 0, out := 0, phase := .dHead } := by
  simp only [checkLine, command_of_decode_op s hop, hfit, if_true]

end

theorem command_of_reserved_op (s : State) (hop : 4 ≤ s.op.toNat) : s.command = .reserved := by
  have h : ∀ op : BitVec 3, 4 ≤ op.toNat → commandOf op = .reserved := by decide
  exact h s.op hop

theorem checkLine_of_windows_unfit (s : State) (hc : s.command = .encode ∨ s.command = .decode) (hp : s.phase = .check)
    (hfit : s.windowsFit = false) :
    checkLine s = .next { s with
      phase := .idle, busy := false, done := true, err := true, errCode := 4
      errPos := 0, outCount := 0, nibCount := 0 } := by
  have hlut : s.isLut = false := by rcases hc with hc | hc <;> simp [State.isLut, hc]
  have hraise : checkLine s = .next (raiseError .dimensionOverflow 0 s) := by
    rcases hc with hc | hc <;> simp [checkLine, hc, hfit]
  rw [hraise, raiseError_of_check _ s hp hlut]
  rfl

theorem checkLine_of_reserved_op (s : State) (hop : 4 ≤ s.op.toNat) (hp : s.phase = .check) :
    checkLine s = .next { s with
      phase := .idle, busy := false, done := true, err := true, errCode := 5
      errPos := 0, outCount := 0, nibCount := 0 } := by
  have hc : s.command = .reserved := command_of_reserved_op s hop
  have hraise : checkLine s = .next (raiseError .illegalCommand 0 s) := by simp only [checkLine, hc]
  rw [hraise, raiseError_of_check _ s hp (by simp [State.isLut, hc])]
  rfl

/-- Settles O18: CHECK command by command, with the windows of ENCODE and DECODE written out. -/
theorem checkStepTestsTheWindows : Obligations.CheckStepTestsTheWindows := by
  intro s hb hp
  rw [engineLine_of_check s hb hp]
  refine ⟨fun hop => ⟨fun hfit => ?encode, fun hunfit => ?encodeUnfit⟩,
    fun hop => ⟨fun hfit => ?decode, fun hunfit => ?decodeUnfit⟩, checkLine_of_lut_op s,
    fun hop => checkLine_of_reserved_op s hop hp⟩
  case encode => exact checkLine_of_encode_op s hop ((windowsFit_of_encode_op s hop).mpr hfit)
  case encodeUnfit =>
    have hwin : s.windowsFit = false := Bool.eq_false_iff.mpr fun h => hunfit ((windowsFit_of_encode_op s hop).mp h)
    exact checkLine_of_windows_unfit s (.inl (command_of_encode_op s hop)) hp hwin
  case decode => exact checkLine_of_decode_op s hop ((windowsFit_of_decode_op s hop).mpr hfit)
  case decodeUnfit =>
    have hwin : s.windowsFit = false := Bool.eq_false_iff.mpr fun h => hunfit ((windowsFit_of_decode_op s hop).mp h)
    exact checkLine_of_windows_unfit s (.inr (command_of_decode_op s hop)) hp hwin

/-! ### The reserved commands (R174) -/

/-- The state in which a reserved command started in `s` ends. -/
def State.reservedEnd (s : State) (op : BitVec 3) (map : Bool) : State :=
  { s with
    op := op, map := map, busy := false, done := true, err := true, errCode := 5
    outCount := 0, nibCount := 0, errPos := 0, phase := .idle }

theorem reservedEnd_statusWord (s : State) (op : BitVec 3) (map : Bool) :
    (s.reservedEnd op map).statusWord = 0x00000056 := by
  simp [State.statusWord, State.reservedEnd, flagAt]

theorem step_of_reserved_check (s : State) (hop : 4 ≤ s.op.toNat) (hb : s.busy = true) (ht : s.turns = [])
    (hp : s.phase = .check) :
    step s = .next { s with
      phase := .idle, busy := false, done := true, err := true, errCode := 5
      errPos := 0, outCount := 0, nibCount := 0 } :=
  calc step s = phaseLine s := step_eq_phaseLine s hb ht (by simp [hp])
    _ = checkLine s := by simp only [phaseLine, hp]
    _ = _ := checkLine_of_reserved_op s hop hp

theorem step_of_reserved_start (s : State) (op : BitVec 3) (map : Bool) (hop : 4 ≤ op.toNat) (hb : s.busy = false)
    (ht : s.turns = []) : step (start op map s) = .next (s.reservedEnd op map) := by
  rw [start_idle op map s hb]
  exact step_of_reserved_check _ hop rfl ht rfl

theorem reserved_mem_startCommands (map : Bool) (x : Instr × BitVec 3)
    (hx : x ∈ ([(.rsvdOp4 map, 4), (.rsvdOp5 map, 5), (.rsvdOp6 map, 6), (.rsvdOp7 map, 7)] : List (Instr × BitVec 3))) :
    x ∈ startCommands map ∧ 4 ≤ x.2.toNat := by
  refine ⟨List.mem_of_mem_drop (i := 4) hx, ?_⟩
  revert x
  simp

/-- Settles O19: a reserved command starts as every starting command does, and its CHECK line ends it. -/
theorem reservedCommandsEndInIllegalCommand : Obligations.ReservedCommandsEndInIllegalCommand := by
  intro s map hb ht x hx
  obtain ⟨hstart, hop⟩ := reserved_mem_startCommands map x hx
  exact ⟨start x.2 map s, s.reservedEnd x.2 map, exec_startCommands map s x hstart, start_statusWord x.2 map s hb,
    step_of_reserved_start s x.2 map hop hb ht, reservedEnd_statusWord s x.2 map, rfl⟩

end Sys2Proof.Machine

/-! SUPPORT. Every running command completes (43_control.md R177): a bound on the engine lines still to come that each line
lowers, on states whose phase and counters are legal. -/

namespace Sys2Proof.Machine

/-! ### A running command and the lines it has left -/

/-- A command is running, at a legal point of its phases: the part of `Inv` that its completion rests on. -/
structure Running (s : State) : Prop where
  busy : s.busy = true
  active : s.phase ≠ .idle
  legal : PhaseLegal s

theorem running_of_inv (s : State) (hinv : Inv s) (hb : s.busy = true) : Running s :=
  ⟨hb, hinv.phaseBusy.mp hb, hinv.phase⟩

/-- A bound on the engine lines a running command has left. ENCODE (R134): E_VAL takes a line for each tile left, and every
token at most 20 (E_LOAD, up to 18 of E_SCAN, E_EMIT). DECODE (R149): each tile left takes at most 3. -/
def State.linesLeft (s : State) : Nat :=
  match s.phase with
  | .idle => 0
  | .check => 21 * s.cells + 3
  | .eVal => (s.cells - s.i) + 20 * s.cells + 2
  | .eLoad => 20 * (s.cells - s.i) + 1
  | .eScan => 20 * (s.cells - s.i) + 1 - s.r
  | .eEmit => 20 * (s.cells - s.i) - 18
  | .eFlush => 1
  | .dHead => 3 * (s.cells - s.out) + 2
  | .dCount => 3 * (s.cells - s.out) + 1
  | .dRun => 3 * (s.cells - (s.out + s.reps)) + s.reps + 2
  | .dTail => 1
  | .lut => 1

theorem linesLeft_le (s : State) (h : Running s) : s.linesLeft ≤ 21 * s.cells + 3 := by
  cases hp : s.phase with
  | dRun =>
    obtain ⟨-, -, -, hout, -⟩ :
        Decoding s ∧ 1 ≤ s.reps ∧ s.reps ≤ 18 ∧ s.out + s.reps ≤ s.cells ∧ validCode s.cur = true := by
      simpa only [PhaseLegal, hp] using h.legal
    simp only [State.linesLeft, hp]
    omega
  | _ =>
    simp only [State.linesLeft, hp]
    omega

/-- With `lines` left, a line that gives `t` has ended the command, or the command runs on with fewer. -/
inductive Advances (lines : Nat) (t : State) : Prop where
  | ended (idle : t.busy = false) (done : t.done = true)
  | goesOn (running : Running t) (fewer : t.linesLeft < lines)

theorem advances_raiseError (lines : Nat) (e : ErrorName) (pos : Nat) (s : State) :
    Advances lines (raiseError e pos s) := by
  rw [raiseError_eq]
  exact .ended rfl rfl

theorem advances_complete (lines : Nat) (s : State) : Advances lines (complete s) := .ended rfl rfl

/-! ### What the engine reads and writes lies in the windows that CHECK has accepted (R53, R57) -/

theorem op_of_encode (s : State) (hc : s.command = .encode) : s.op = 0 := by
  have h : ∀ op : BitVec 3, commandOf op = .encode → op = 0 := by decide
  exact h s.op hc

theorem op_of_decode (s : State) (hc : s.command = .decode) : s.op = 1 := by
  have h : ∀ op : BitVec 3, commandOf op = .decode → op = 1 := by decide
  exact h s.op hc

theorem op_of_isLut (s : State) (hlut : s.isLut = true) : s.op = 2 ∨ s.op = 3 := by
  have h : ∀ op : BitVec 3, commandOf op = .lutEnc ∨ commandOf op = .lutDec → op = 2 ∨ op = 3 := by decide
  have hc : s.command = .lutEnc ∨ s.command = .lutDec := by
    unfold State.isLut at hlut
    split at hlut <;> simp_all
  exact h s.op hc

theorem windows_of_encode (s : State) (hc : s.command = .encode) (hfit : s.windowsFit = true) :
    s.sb + s.cells ≤ s.srcSize ∧ s.db + (s.cells + 1) / 2 ≤ s.dstSize :=
  (windowsFit_of_encode_op s (op_of_encode s hc)).mp hfit

theorem windows_of_decode (s : State) (hc : s.command = .decode) (hfit : s.windowsFit = true) :
    s.sb + s.payloadLen ≤ s.srcSize ∧ s.db + s.cells ≤ s.dstSize :=
  (windowsFit_of_decode_op s (op_of_decode s hc)).mp hfit

/-- Every tile that E_VAL has accepted converts to its code. -/
theorem readTileCode_of_encoding (s : State) (henc : Encoding s) (j : Nat) (hj : j < s.cells) :
    ∃ tile, tileOfByte s.map (s.srcByte (s.sb + j)) = some tile ∧ ∀ use, readTileCode s j use = use tile.code := by
  obtain ⟨hc, hfit, hvalid, -, -⟩ := henc
  obtain ⟨hsrc, -⟩ := windows_of_encode s hc hfit
  obtain ⟨tile, htile⟩ := Option.isSome_iff_exists.mp (hvalid j hj)
  have hinside : s.sb + j < s.srcSize := by omega
  exact ⟨tile, htile, fun use => by simp only [readTileCode, memRead, hinside, if_true, htile]⟩

/-- Nibble `q` of the payload stands in byte `q / 2` of the input window. -/
theorem readNibble_of_decoding (s : State) (hdec : Decoding s) (q : Nat) (hq : q < 2 * s.payloadLen)
    (use : Nibble → Result) : readNibble s q use = use (s.nib q) := by
  obtain ⟨hc, hfit, -, -⟩ := hdec
  obtain ⟨hsrc, -⟩ := windows_of_decode s hc hfit
  have hinside : s.nibbleAddr q < s.srcSize := by
    unfold State.nibbleAddr
    omega
  simp only [readNibble, memRead, hinside, if_true, State.nib]

theorem outAddr_lt_of_decoding (s : State) (hdec : Decoding s) (hout : s.out < s.cells) : s.db + s.out < s.dstSize := by
  obtain ⟨hc, hfit, -, -⟩ := hdec
  obtain ⟨-, hdst⟩ := windows_of_decode s hc hfit
  omega

/-! ### CHECK and LUT -/

theorem checkLine_advances_lut (s : State) (h : Running s) (hp : s.phase = .check) (hlut : s.isLut = true) :
    ∃ t, checkLine s = .next t ∧ Advances s.linesLeft t := by
  refine ⟨_, checkLine_of_lut_op s (op_of_isLut s hlut), .goesOn ⟨h.busy, nofun, hlut⟩ ?_⟩
  simp only [State.linesLeft, hp]
  omega

theorem checkLine_advances (s : State) (h : Running s) (hp : s.phase = .check) :
    ∃ t, checkLine s = .next t ∧ Advances s.linesLeft t := by
  cases hc : s.command with
  | encode =>
    cases hfit : s.windowsFit with
    | true =>
      refine ⟨_, checkLine_of_encode_op s (op_of_encode s hc) hfit, .goesOn ⟨h.busy, nofun, ?legal⟩ ?fewer⟩
      case legal => exact ⟨hc, hfit, Nat.zero_le _, nofun⟩
      case fewer =>
        simp only [State.linesLeft, hp, State.cells]
        omega
    | false => exact ⟨_, checkLine_of_windows_unfit s (.inl hc) hp hfit, .ended rfl rfl⟩
  | decode =>
    cases hfit : s.windowsFit with
    | true =>
      refine ⟨_, checkLine_of_decode_op s (op_of_decode s hc) hfit, .goesOn ⟨h.busy, nofun, ?legal⟩ ?fewer⟩
      case legal => exact ⟨hc, hfit, Nat.zero_le _, Nat.zero_le _⟩
      case fewer =>
        simp only [State.linesLeft, hp, State.cells]
        omega
    | false => exact ⟨_, checkLine_of_windows_unfit s (.inr hc) hp hfit, .ended rfl rfl⟩
  | lutEnc => exact checkLine_advances_lut s h hp (by simp only [State.isLut, hc])
  | lutDec => exact checkLine_advances_lut s h hp (by simp only [State.isLut, hc])
  | reserved =>
    refine ⟨raiseError .illegalCommand 0 s, ?_, advances_raiseError ..⟩
    simp only [checkLine, hc]

theorem lutLine_advances (s : State) (h : Running s) (hp : s.phase = .lut) :
    ∃ t, lutLine s = .next t ∧ Advances s.linesLeft t := by
  have hlut : s.isLut = true := by simpa only [PhaseLegal, hp] using h.legal
  rw [lutLine_of_lut_op s (op_of_isLut s hlut)]
  cases lutResult s.op s.lutIn with
  | some v => exact ⟨_, rfl, advances_complete ..⟩
  | none => exact ⟨_, rfl, advances_raiseError ..⟩

/-! ### E_VAL, E_LOAD and E_SCAN -/

theorem inputValid_succ (s : State) (n : Nat) (h : InputValid s n) (hn : inValid s.map (s.srcByte (s.sb + n)) = true) :
    InputValid s (n + 1) := by
  intro j hj
  rcases Nat.lt_succ_iff_lt_or_eq.mp hj with hlt | rfl
  · exact h j hlt
  · exact hn

theorem eValLine_advances (s : State) (h : Running s) (hp : s.phase = .eVal) :
    ∃ t, eValLine s = .next t ∧ Advances s.linesLeft t := by
  obtain ⟨hc, hfit, hi, hvalid⟩ : s.command = .encode ∧ s.windowsFit = true ∧ s.i ≤ s.cells ∧ InputValid s s.i := by
    simpa only [PhaseLegal, hp] using h.legal
  obtain ⟨hsrc, -⟩ := windows_of_encode s hc hfit
  have hlines : s.linesLeft = (s.cells - s.i) + 20 * s.cells + 2 := by simp only [State.linesLeft, hp]
  rw [hlines]
  rcases Nat.lt_or_eq_of_le hi with hlt | hend
  · have hinside : s.sb + s.i < s.srcSize := by omega
    cases hv : inValid s.map (s.srcByte (s.sb + s.i)) with
    | false => exact ⟨_, eValLine_invalid s hlt hinside hv, advances_raiseError ..⟩
    | true =>
      refine ⟨_, eValLine_valid s hlt hinside hv, .goesOn ⟨h.busy, h.active, ?legal⟩ ?fewer⟩
      case legal =>
        simp only [PhaseLegal, hp]
        exact ⟨hc, hfit, hlt, inputValid_succ s s.i hvalid hv⟩
      case fewer =>
        simp only [State.linesLeft, hp, State.cells] at hlt ⊢
        omega
  · have henc (ph : Phase) : Encoding { s with i := 0, k := 0, half := false, wb := 0, phase := ph } :=
      ⟨hc, hfit, hend ▸ hvalid, rfl, Nat.le_refl 0⟩
    rw [eValLine, if_pos hend]
    refine ⟨_, rfl, ?_⟩
    by_cases hempty : s.cells = 0
    · rw [if_pos hempty]
      exact .goesOn ⟨h.busy, nofun, henc .eFlush, hempty.symm⟩ (Nat.lt_of_lt_of_le Nat.one_lt_two (Nat.le_add_left ..))
    · rw [if_neg hempty]
      refine .goesOn ⟨h.busy, nofun, henc .eLoad, Nat.pos_of_ne_zero hempty⟩ ?_
      simp only [State.linesLeft, State.cells]
      omega

theorem eLoadLine_advances (s : State) (h : Running s) (hp : s.phase = .eLoad) :
    ∃ t, eLoadLine s = .next t ∧ Advances s.linesLeft t := by
  obtain ⟨henc, hi⟩ : Encoding s ∧ s.i < s.cells := by simpa only [PhaseLegal, hp] using h.legal
  obtain ⟨tile, htile, hread⟩ := readTileCode_of_encoding s henc s.i hi
  refine ⟨_, hread _, .goesOn ⟨h.busy, nofun, henc, ?scanned⟩ ?fewer⟩
  case scanned =>
    refine ⟨Nat.le_refl 1, Nat.le_add_left 1 17, hi, fun j hj => ?_⟩
    obtain rfl : j = 0 := Nat.lt_one_iff.mp hj
    exact congrArg (Option.map Tile.code) htile
  case fewer =>
    simp only [State.linesLeft, hp, State.cells] at hi ⊢
    omega

/-- A scan that goes on has one more tile of the same code. -/
theorem runScanned_succ (s : State) (hrun : RunScanned s) (hi : s.i + s.r < s.cells) (hr : s.r < 18)
    (hnext : (tileOfByte s.map (s.srcByte (s.sb + (s.i + s.r)))).map Tile.code = some s.cur) :
    RunScanned { s with r := s.r + 1 } := by
  obtain ⟨-, -, -, hcodes⟩ := hrun
  refine ⟨Nat.le_add_left 1 s.r, hr, hi, fun j hj => ?_⟩
  rcases Nat.lt_succ_iff_lt_or_eq.mp hj with hlt | rfl
  · exact hcodes j hlt
  · exact hnext

theorem eScanLine_advances (s : State) (h : Running s) (hp : s.phase = .eScan) :
    ∃ t, eScanLine s = .next t ∧ Advances s.linesLeft t := by
  obtain ⟨henc, hrun⟩ : Encoding s ∧ RunScanned s := by simpa only [PhaseLegal, hp] using h.legal
  obtain ⟨hpos, hr18, hend, -⟩ := id hrun
  have hlines : s.linesLeft = 20 * (s.cells - s.i) + 1 - s.r := by simp only [State.linesLeft, hp]
  rw [hlines]
  have hemit : Advances (20 * (s.cells - s.i) + 1 - s.r) { s with phase := .eEmit } := by
    refine .goesOn ⟨h.busy, nofun, henc, hrun⟩ ?_
    simp only [State.linesLeft, State.cells] at hend ⊢
    omega
  unfold eScanLine
  by_cases hmore : s.i + s.r < s.cells ∧ s.r < 18
  · obtain ⟨tile, htile, hread⟩ := readTileCode_of_encoding s henc (s.i + s.r) hmore.1
    rw [if_pos hmore, hread]
    by_cases hsame : tile.code = s.cur
    · rw [if_pos hsame]
      refine ⟨_, rfl, .goesOn ⟨h.busy, h.active, ?legal⟩ ?fewer⟩
      case legal =>
        simp only [PhaseLegal, hp]
        exact ⟨henc, runScanned_succ s hrun hmore.1 hmore.2 (by rw [htile, Option.map_some, hsame])⟩
      case fewer =>
        simp only [State.linesLeft, hp, State.cells] at hmore ⊢
        omega
    · rw [if_neg hsame]
      exact ⟨_, rfl, hemit⟩
  · rw [if_neg hmore]
    exact ⟨_, rfl, hemit⟩

/-! ### E_EMIT and E_FLUSH -/

/-- The state with the packer's registers and DST as given: all that `push` can change. -/
def State.withPacker (s : State) (dst : Memory) (k : Nat) (hold : Nibble) (half : Bool) (wb : Nat) : State :=
  { s with dst := dst, k := k, hold := hold, half := half, wb := wb }

/-- `push` while the packer's window has room for one more nibble: the count of nibbles stays exact (R128). -/
theorem push_of_room (n : Nibble) (s : State) (hcount : 2 * s.wb + s.half.toNat = s.k)
    (hroom : s.db + (s.k + 2) / 2 ≤ s.dstSize) :
    ∃ dst hold half wb, push n s = .next (s.withPacker dst (s.k + 1) hold half wb) ∧ 2 * wb + half.toNat = s.k + 1 := by
  cases hhalf : s.half with
  | false =>
    rw [hhalf] at hcount
    exact ⟨s.dst, n, true, s.wb, push_empty n s hhalf, congrArg (· + 1) hcount⟩
  | true =>
    rw [hhalf, Bool.toNat_true] at hcount
    have hinside : s.db + s.wb < s.dstSize := by omega
    exact ⟨_, s.hold, false, s.wb + 1, (push_half n s _ hhalf).mpr ⟨hinside, rfl⟩, by rw [← hcount]; rfl⟩

/-- The end of E_EMIT, once the `tiles` tiles of a token are packed. -/
theorem nextRun_advances (s : State) (tiles : Nat) (hb : s.busy = true) (henc : Encoding { s with i := s.i + tiles })
    (hpos : 1 ≤ tiles) (hi : s.i + tiles ≤ s.cells) : Advances (20 * (s.cells - s.i) - 18) (nextRun tiles s) := by
  by_cases hmore : s.i + tiles < s.cells
  · rw [nextRun, if_pos hmore]
    refine .goesOn ⟨hb, nofun, henc, hmore⟩ ?_
    simp only [State.linesLeft, State.cells] at hmore ⊢
    omega
  · rw [nextRun, if_neg hmore]
    refine .goesOn ⟨hb, nofun, henc, Nat.le_antisymm hi (Nat.le_of_not_lt hmore)⟩ ?_
    simp only [State.linesLeft]
    omega

theorem eEmitLine_advances (s : State) (h : Running s) (hp : s.phase = .eEmit) :
    ∃ t, eEmitLine s = .next t ∧ Advances s.linesLeft t := by
  obtain ⟨⟨hc, hfit, hvalid, hcount, hk⟩, hpos, hr18, hi, -⟩ : Encoding s ∧ RunScanned s := by
    simpa only [PhaseLegal, hp] using h.legal
  obtain ⟨-, hdst⟩ := windows_of_encode s hc hfit
  have hlines : s.linesLeft = 20 * (s.cells - s.i) - 18 := by simp only [State.linesLeft, hp]
  rw [hlines]
  unfold eEmitLine
  by_cases hlit : s.r < 3
  · obtain ⟨dst, hold, half, wb, hpush, hcount₁⟩ := push_of_room s.cur s hcount (by omega)
    rw [if_pos hlit, hpush]
    exact ⟨_, rfl, nextRun_advances (s.withPacker dst (s.k + 1) hold half wb) 1 h.busy
      ⟨hc, hfit, hvalid, hcount₁, Nat.succ_le_succ hk⟩ (Nat.le_refl 1) (Nat.le_trans (Nat.add_le_add_left hpos s.i) hi)⟩
  · obtain ⟨dst₁, hold₁, half₁, wb₁, hpush₁, hcount₁⟩ := push_of_room (s.cur ||| 1) s hcount (by omega)
    obtain ⟨dst₂, hold₂, half₂, wb₂, hpush₂, hcount₂⟩ :=
      push_of_room (BitVec.ofNat 4 (s.r - 3)) (s.withPacker dst₁ (s.k + 1) hold₁ half₁ wb₁) hcount₁
        (by simp only [State.withPacker, State.db] at hdst ⊢; omega)
    rw [if_neg hlit, if_pos hr18, hpush₁, andThen_next, hpush₂]
    have hk₂ : s.k + 1 + 1 ≤ s.i + s.r := by omega
    exact ⟨_, rfl, nextRun_advances (s.withPacker dst₂ (s.k + 1 + 1) hold₂ half₂ wb₂) s.r h.busy
      ⟨hc, hfit, hvalid, hcount₂, hk₂⟩ hpos hi⟩

theorem flushHalf_next (s : State) (henc : Encoding s) (hi : s.i = s.cells) : ∃ t, flushHalf s = .next t := by
  obtain ⟨hc, hfit, -, hcount, hk⟩ := henc
  obtain ⟨-, hdst⟩ := windows_of_encode s hc hfit
  unfold flushHalf
  cases hhalf : s.half with
  | false => exact ⟨s, rfl⟩
  | true =>
    rw [hhalf, Bool.toNat_true] at hcount
    have hinside : s.db + s.wb < s.dstSize := by omega
    exact ⟨_, (andThen_eq_next ..).mpr ⟨_, (memWrite_eq_next ..).mpr ⟨hinside, rfl⟩, rfl⟩⟩

theorem eFlushLine_advances (s : State) (h : Running s) (hp : s.phase = .eFlush) :
    ∃ t, eFlushLine s = .next t ∧ Advances s.linesLeft t := by
  obtain ⟨henc, hi⟩ : Encoding s ∧ s.i = s.cells := by simpa only [PhaseLegal, hp] using h.legal
  obtain ⟨t, ht⟩ := flushHalf_next s henc hi
  rw [eFlushLine, ht]
  exact ⟨_, rfl, advances_complete ..⟩

/-! ### The lines of DECODE -/

theorem dHeadLine_advances (s : State) (h : Running s) (hp : s.phase = .dHead) :
    ∃ t, dHeadLine s = .next t ∧ Advances s.linesLeft t := by
  have hdec : Decoding s := by simpa only [PhaseLegal, hp] using h.legal
  obtain ⟨hc, hfit, hout, hptr⟩ := id hdec
  have hlines : s.linesLeft = 3 * (s.cells - s.out) + 2 := by simp only [State.linesLeft, hp]
  rw [hlines]
  unfold dHeadLine
  by_cases hend : s.out = s.cells
  · rw [if_pos hend]
    exact ⟨_, rfl, .goesOn ⟨h.busy, nofun, hdec, hend⟩ (Nat.lt_of_lt_of_le Nat.one_lt_two (Nat.le_add_left ..))⟩
  rw [if_neg hend]
  by_cases hover : s.p = 2 * s.payloadLen
  · rw [if_pos hover]
    exact ⟨_, rfl, advances_raiseError ..⟩
  have hmore : s.out < s.cells := by omega
  have hq : s.p < 2 * s.payloadLen := by omega
  rw [if_neg hover, readNibble_of_decoding s hdec s.p hq]
  cases hterrain : tileOfCode (terrainCode (s.nib s.p)) with
  | none => exact ⟨_, rfl, advances_raiseError ..⟩
  | some tile =>
    cases hcontrol : controlBit (s.nib s.p) with
    | true =>
      have hcode : validCode (terrainCode (s.nib s.p)) = true := Option.isSome_iff_exists.mpr ⟨tile, hterrain⟩
      exact ⟨_, rfl, .goesOn ⟨h.busy, nofun, hdec, hmore, hq, hcode⟩ (Nat.lt_succ_self _)⟩
    | false =>
      refine ⟨_, (litHead_eq_next tile s _).mpr ⟨outAddr_lt_of_decoding s hdec hmore, rfl⟩,
        .goesOn ⟨h.busy, h.active, ?legal⟩ ?fewer⟩
      case legal =>
        simp only [PhaseLegal, hp]
        exact ⟨hc, hfit, hmore, hq⟩
      case fewer =>
        simp only [State.linesLeft, hp, State.cells] at hmore ⊢
        omega

theorem dCountLine_advances (s : State) (h : Running s) (hp : s.phase = .dCount) :
    ∃ t, dCountLine s = .next t ∧ Advances s.linesLeft t := by
  obtain ⟨hdec, hout, hq, hcur⟩ :
      Decoding s ∧ s.out < s.cells ∧ s.p < 2 * s.payloadLen ∧ validCode s.cur = true := by
    simpa only [PhaseLegal, hp] using h.legal
  obtain ⟨hc, hfit, -, -⟩ := id hdec
  have hlines : s.linesLeft = 3 * (s.cells - s.out) + 1 := by simp only [State.linesLeft, hp]
  rw [hlines]
  unfold dCountLine
  by_cases hmissing : s.countMissing = true
  · rw [if_pos hmissing]
    exact ⟨_, rfl, advances_raiseError ..⟩
  have hcount : s.p + 2 ≤ 2 * s.payloadLen := by
    have hne : s.p + 1 ≠ 2 * s.payloadLen := by simpa [State.countMissing] using hmissing
    omega
  rw [if_neg hmissing, readNibble_of_decoding s hdec (s.p + 1) hcount]
  refine ⟨_, rfl, ?_⟩
  have hn : (s.nib (s.p + 1)).toNat < 16 := (s.nib (s.p + 1)).isLt
  generalize (s.nib (s.p + 1)).toNat = n at hn
  unfold runCount
  by_cases hroom : s.out + n + 3 > s.cells
  · rw [if_pos hroom]
    exact advances_raiseError ..
  · rw [if_neg hroom]
    have hfits : s.out + (n + 3) ≤ s.cells := by omega
    refine .goesOn ⟨h.busy, nofun, ⟨hc, hfit, hout.le, hcount⟩, Nat.le_add_left 1 (n + 2), ?reps, hfits, hcur⟩ ?fewer
    case reps => exact Nat.add_le_add_right (Nat.le_of_lt_succ hn) 3
    case fewer =>
      simp only [State.linesLeft, State.cells] at hfits ⊢
      omega

theorem dRunLine_advances (s : State) (h : Running s) (hp : s.phase = .dRun) :
    ∃ t, dRunLine s = .next t ∧ Advances s.linesLeft t := by
  obtain ⟨hdec, hpos, hr18, hfits, hcur⟩ :
      Decoding s ∧ 1 ≤ s.reps ∧ s.reps ≤ 18 ∧ s.out + s.reps ≤ s.cells ∧ validCode s.cur = true := by
    simpa only [PhaseLegal, hp] using h.legal
  obtain ⟨hc, hfit, -, hptr⟩ := id hdec
  obtain ⟨tile, htile⟩ := Option.isSome_iff_exists.mp hcur
  have hout : s.out < s.cells := by omega
  have hlines : s.linesLeft = 3 * (s.cells - (s.out + s.reps)) + s.reps + 2 := by simp only [State.linesLeft, hp]
  rw [hlines]
  refine ⟨_, (dRunLine_eq_next s _).mpr ⟨tile, htile, outAddr_lt_of_decoding s hdec hout, rfl⟩, ?_⟩
  by_cases hlast : s.reps - 1 = 0
  · rw [if_pos hlast]
    refine .goesOn ⟨h.busy, nofun, hc, hfit, hout, hptr⟩ ?_
    simp only [State.linesLeft, State.cells]
    omega
  · rw [if_neg hlast]
    have hfits' : s.out + 1 + (s.reps - 1) ≤ s.cells := by omega
    refine .goesOn ⟨h.busy, nofun, ⟨hc, hfit, hout, hptr⟩, Nat.one_le_iff_ne_zero.mpr hlast, ?_, hfits', hcur⟩ ?fewer
    · exact Nat.le_trans (Nat.sub_le ..) hr18
    case fewer =>
      simp only [State.linesLeft, State.cells] at hfits' ⊢
      omega

theorem dTailLine_advances (lines : Nat) (s : State) : ∃ t, dTailLine s = .next t ∧ Advances lines t := by
  unfold dTailLine
  split
  · exact ⟨_, rfl, advances_raiseError ..⟩
  · exact ⟨_, rfl, advances_complete ..⟩

/-! ### Completion -/

theorem engineLine_advances (s : State) (h : Running s) : ∃ t, engineLine s = .next t ∧ Advances s.linesLeft t := by
  rw [engineLine_busy s h.busy]
  unfold phaseLine
  cases hp : s.phase with
  | idle => exact absurd hp h.active
  | check => exact checkLine_advances s h hp
  | eVal => exact eValLine_advances s h hp
  | eLoad => exact eLoadLine_advances s h hp
  | eScan => exact eScanLine_advances s h hp
  | eEmit => exact eEmitLine_advances s h hp
  | eFlush => exact eFlushLine_advances s h hp
  | dHead => exact dHeadLine_advances s h hp
  | dCount => exact dCountLine_advances s h hp
  | dRun => exact dRunLine_advances s h hp
  | dTail => exact dTailLine_advances s.linesLeft s
  | lut => exact lutLine_advances s h hp

/-- One line more than the bound says: the line that ends the command. -/
theorem engineLines_complete (n : Nat) (s : State) (h : Running s) (hn : s.linesLeft < n) :
    ∃ u k, k ≤ n ∧ engineLines k s = .next u ∧ u.busy = false ∧ u.done = true := by
  induction n generalizing s with
  | zero => exact absurd hn (Nat.not_lt_zero _)
  | succ n ih =>
    obtain ⟨t, hline, hadv⟩ := engineLine_advances s h
    cases hadv with
    | ended hidle hdone =>
      exact ⟨t, 1, Nat.le_add_left 1 n, by rw [engineLines, hline]; rfl, hidle, hdone⟩
    | goesOn hrun hfewer =>
      obtain ⟨u, k, hk, hlines, hend⟩ := ih t hrun (by omega)
      exact ⟨u, k + 1, Nat.succ_le_succ hk, by rw [engineLines, hline, andThen_next, hlines], hend⟩

/-- Settles O43: every engine line of a running command lowers `linesLeft`, which is at most 21N + 3. -/
theorem runningCommandCompletes : Obligations.RunningCommandCompletes := by
  intro s hinv hb
  have hrun : Running s := running_of_inv s hinv hb
  exact engineLines_complete (21 * s.cells + 4) s hrun (Nat.lt_succ_of_le (linesLeft_le s hrun))

end Sys2Proof.Machine

/-! SUPPORT. The soft reset (70_reset_and_hazards.md R201): what the host reads after it and which DST bytes it can touch. -/

namespace Sys2Proof.Machine

/-! ### What the host reads (R202) -/

/-- Every readable register is among those of R21, and a reserved index reads 0 anyway (R33). -/
theorem registersReset_readReg (s : State) (idx : BitVec 5) : s.registersReset.readReg idx = 0 := by
  unfold State.readReg
  split
  case h_1 => simp [State.ctrlWord, flagAt]
  case h_2 => simp [State.statusWord, flagAt]
  all_goals rfl

/-- The hidden registers of R40 have no index. -/
theorem hiddenUnspecified_readReg (s : State) (idx : BitVec 5) : s.hiddenUnspecified.readReg idx = s.readReg idx := rfl

/-! ### What the soft reset does to DST (R209, U4) -/

theorem get?_windowUnspecified_outside (s : State) (a : Nat) (ha : ¬ (s.db ≤ a ∧ a < s.db + s.outputLen)) :
    s.windowUnspecified.dst.get? a = s.dst.get? a := by
  rw [windowUnspecified_dst, get?_fillWindow]
  exact if_neg fun ⟨hlo, hhi, _⟩ => ha ⟨hlo, hhi⟩

/-- Everything a soft reset does, busy or idle: before the registers are reset only DST and the draw counter can change,
and DST only inside the output window of a command that is running. -/
theorem softReset_eq (s : State) :
    ∃ dst draws, softReset s = ({ s with dst := dst, draws := draws } : State).registersReset.hiddenUnspecified ∧
      ∀ a, s.busy = false ∨ ¬ (s.db ≤ a ∧ a < s.db + s.outputLen) → dst.get? a = s.dst.get? a := by
  cases hb : s.busy with
  | false => exact ⟨s.dst, s.draws, if_neg (Bool.eq_false_iff.mp hb), fun _ _ => rfl⟩
  | true =>
    refine ⟨s.windowUnspecified.dst, s.draws + 1, if_pos hb, fun a ha => ?_⟩
    exact get?_windowUnspecified_outside s a (ha.resolve_left nofun)

/-- Settles O13: the registers by `registersReset`, DST by its window, and no other field is written. -/
theorem softResetKeepsBuffersAndClearsRegisters : Obligations.SoftResetKeepsBuffersAndClearsRegisters := by
  intro s
  obtain ⟨dst, draws, hreset, hdst⟩ := softReset_eq s
  refine ⟨softReset s, rfl, ?_⟩
  rw [hreset]
  refine ⟨fun idx => ?registers, rfl, rfl, rfl, rfl, fun _ => rfl, fun a ha => ?dst, rfl, rfl, rfl, rfl, rfl⟩
  case registers => rw [hiddenUnspecified_readReg, registersReset_readReg]
  case dst => exact congrArg (·.getD (Config.powerOnDst s.epoch a)) (hdst a ha)

end Sys2Proof.Machine

/-! SUPPORT. The run-length coding as a function of lists (41_rle_encode.md R124, R126, R130): `rleEncode` splits its input
into groups, each a LIT or a RUN token, and every fact about it is an induction over these groups. -/

namespace Sys2Proof

/-! ### One group -/

/-- The nibbles emitted for a scanned run of `r` tiles of code `c`: one LIT, or a RUN head and its count. -/
def groupNibbles (c : Nibble) (r : Nat) : List Nibble := if r < 3 then [c] else [c ||| 1, BitVec.ofNat 4 (r - 3)]

/-- How many tiles of a scanned run of `r` they stand for. -/
def groupTiles (r : Nat) : Nat := if r < 3 then 1 else r

theorem groupNibbles_lit (c : Nibble) {r : Nat} (h : r < 3) : groupNibbles c r = [c] := if_pos h

theorem groupNibbles_run (c : Nibble) {r : Nat} (h : ¬ r < 3) :
    groupNibbles c r = [c ||| 1, BitVec.ofNat 4 (r - 3)] := if_neg h

theorem groupTiles_lit {r : Nat} (h : r < 3) : groupTiles r = 1 := if_pos h

theorem groupTiles_run {r : Nat} (h : ¬ r < 3) : groupTiles r = r := if_neg h

theorem groupTiles_pos (r : Nat) : 1 ≤ groupTiles r := by
  unfold groupTiles
  split <;> omega

theorem groupTiles_le {r : Nat} (h : 1 ≤ r) : groupTiles r ≤ r := by
  unfold groupTiles
  split <;> omega

theorem length_groupNibbles_le (c : Nibble) (r : Nat) : (groupNibbles c r).length ≤ groupTiles r := by
  by_cases h : r < 3
  · rw [groupNibbles_lit c h, groupTiles_lit h, List.length_singleton]
  · rw [groupNibbles_run c h, groupTiles_run h]
    exact Nat.le_of_succ_le (Nat.le_of_not_lt h)

/-! ### The scan -/

theorem scanRun_le_cap (c : Nibble) (cap : Nat) (T : List Nibble) : scanRun c cap T ≤ cap := by
  induction cap generalizing T with
  | zero => exact Nat.le_refl 0
  | succ cap ih =>
    cases T with
    | nil => exact Nat.zero_le _
    | cons x T =>
      rw [scanRun]
      split
      · exact Nat.succ_le_succ (ih T)
      · exact Nat.zero_le _

theorem scanRun_le_length (c : Nibble) (cap : Nat) (T : List Nibble) : scanRun c cap T ≤ T.length := by
  induction cap generalizing T with
  | zero => exact Nat.zero_le _
  | succ cap ih =>
    cases T with
    | nil => exact Nat.le_refl 0
    | cons x T =>
      rw [scanRun]
      split
      · exact Nat.succ_le_succ (ih T)
      · exact Nat.zero_le _

/-- What the scan counts is a run of `c`. -/
theorem take_scanRun (c : Nibble) (cap : Nat) (T : List Nibble) :
    T.take (scanRun c cap T) = List.replicate (scanRun c cap T) c := by
  induction cap generalizing T with
  | zero => rfl
  | succ cap ih =>
    cases T with
    | nil => rfl
    | cons x T =>
      rw [scanRun]
      split
      · rename_i hx
        rw [List.take_succ_cons, List.replicate_succ, ih T, hx]
      · rfl

/-- The scan stops at the cap or at the first other tile. -/
theorem scanRun_replicate_append (c : Nibble) (cap r : Nat) (U : List Nibble) (hr : r ≤ cap)
    (hstop : r = cap ∨ U.head? ≠ some c) : scanRun c cap (List.replicate r c ++ U) = r := by
  induction cap generalizing r with
  | zero => exact (Nat.le_zero.mp hr).symm
  | succ cap ih =>
    cases r with
    | zero =>
      cases U with
      | nil => rfl
      | cons x U =>
        have hx : x ≠ c := fun hx => (hstop.resolve_left nofun) (congrArg some hx)
        exact if_neg hx
    | succ r =>
      rw [List.replicate_succ, List.cons_append, scanRun, if_pos rfl]
      exact congrArg (· + 1) (ih r (Nat.le_of_succ_le_succ hr) (hstop.imp_left Nat.succ.inj))

/-- A scan from a tile counts that tile. -/
theorem scanRun_self (c : Nibble) (cap : Nat) (T : List Nibble) : scanRun c (cap + 1) (c :: T) = scanRun c cap T + 1 :=
  if_pos rfl

/-! ### Group by group -/

/-- Enough rounds are as good as any: each takes at least one tile. -/
theorem rleEncodeRounds_eq (n : Nat) (T : List Nibble) (h : T.length ≤ n) : rleEncodeRounds n T = rleEncode T := by
  suffices hrounds : ∀ (n m : Nat) (T : List Nibble), T.length ≤ n → T.length ≤ m →
      rleEncodeRounds n T = rleEncodeRounds m T from hrounds n T.length T h (Nat.le_refl _)
  intro n
  induction n with
  | zero =>
    intro m T hn _
    obtain rfl := List.length_eq_zero_iff.mp (Nat.le_zero.mp hn)
    cases m <;> rfl
  | succ n ih =>
    intro m T hn hm
    cases T with
    | nil => cases m <;> rfl
    | cons c T =>
      cases m with
      | zero => nomatch hm
      | succ m =>
        have hn : T.length ≤ n := Nat.le_of_succ_le_succ hn
        have hm : T.length ≤ m := Nat.le_of_succ_le_succ hm
        have hdrop : ∀ r, (T.drop r).length ≤ T.length := fun r => (List.drop_sublist r T).length_le
        simp only [rleEncodeRounds, ih m T hn hm, ih m (T.drop _) ((hdrop _).trans hn) ((hdrop _).trans hm)]

@[simp] theorem rleEncode_nil : rleEncode [] = [] := rfl

/-- The first group of a nonempty input, and the encoding of the rest. -/
theorem rleEncode_cons (c : Nibble) (T : List Nibble) :
    rleEncode (c :: T) =
      groupNibbles c (scanRun c 18 (c :: T)) ++ rleEncode ((c :: T).drop (groupTiles (scanRun c 18 (c :: T)))) := by
  have hrounds : ∀ r, rleEncodeRounds T.length (T.drop r) = rleEncode (T.drop r) := fun r =>
    rleEncodeRounds_eq _ _ (List.drop_sublist r T).length_le
  have hround : rleEncode (c :: T) = rleEncodeRounds (T.length + 1) (c :: T) := rfl
  rw [scanRun_self, hround, rleEncodeRounds]
  by_cases h : scanRun c 17 T + 1 < 3
  · rw [if_pos h, groupNibbles_lit c h, groupTiles_lit h]
    rfl
  · rw [if_neg h, groupNibbles_run c h, groupTiles_run h, hrounds]
    rfl

/-- A first group of `r` equal tiles, where the scan stops after `r` (R122, R124). -/
theorem rleEncode_group (c : Nibble) (r : Nat) (U : List Nibble) (hpos : 1 ≤ r) (hr : r ≤ 18)
    (hstop : r = 18 ∨ U.head? ≠ some c) :
    rleEncode (List.replicate r c ++ U) =
      groupNibbles c r ++ rleEncode ((List.replicate r c ++ U).drop (groupTiles r)) := by
  have hscan : scanRun c 18 (List.replicate r c ++ U) = r := scanRun_replicate_append c 18 r U hr hstop
  cases r with
  | zero => nomatch hpos
  | succ r =>
    rw [List.replicate_succ, List.cons_append] at hscan ⊢
    rw [rleEncode_cons, hscan]

/-- Induction over the groups of an encoding. -/
theorem rleEncode_induction {P : List Nibble → Prop} (nil : P [])
    (group : ∀ c T, P ((c :: T).drop (groupTiles (scanRun c 18 (c :: T)))) → P (c :: T)) (T : List Nibble) : P T := by
  induction hlen : T.length using Nat.strong_induction_on generalizing T with
  | _ len ih =>
    cases T with
    | nil => exact nil
    | cons c T =>
      refine group c T (ih _ ?_ _ rfl)
      have hpos := groupTiles_pos (scanRun c 18 (c :: T))
      rw [List.length_drop, ← hlen, List.length_cons]
      omega

/-! ### Long runs (R126) -/

/-- The tokens of a run of `R < 18` tiles that ends there. -/
theorem rleEncode_short_run (c : Nibble) (R : Nat) (T : List Nibble) (hR : R < 18) (hT : T.head? ≠ some c) :
    rleEncode (List.replicate R c ++ T) =
      (if R < 3 then List.replicate R c else [c ||| 1, BitVec.ofNat 4 (R - 3)]) ++ rleEncode T := by
  induction R with
  | zero => rfl
  | succ R ih =>
    rw [rleEncode_group c (R + 1) T (Nat.le_add_left 1 R) hR.le (.inr hT)]
    by_cases h : R + 1 < 3
    · have hrest : R < 3 := Nat.lt_of_succ_lt h
      have hdrop : (List.replicate (R + 1) c ++ T).drop 1 = List.replicate R c ++ T := rfl
      rw [groupNibbles_lit c h, groupTiles_lit h, hdrop, ih (Nat.lt_of_succ_lt hR), if_pos h, if_pos hrest]
      rfl
    · rw [groupNibbles_run c h, groupTiles_run h, if_neg h, List.drop_left' List.length_replicate]

/-- A run of 18 or more begins with a RUN of 18, whatever comes after. -/
theorem rleEncode_full_run (c : Nibble) (R : Nat) (T : List Nibble) :
    rleEncode (List.replicate (R + 18) c ++ T) = [c ||| 1, 15] ++ rleEncode (List.replicate R c ++ T) := by
  rw [Nat.add_comm, List.replicate_add, List.append_assoc,
    rleEncode_group c 18 _ (Nat.le_add_left 1 17) (Nat.le_refl 18) (.inl rfl)]
  rfl

/-- Settles O33: a full group as long as 18 tiles are left, then the short rest. -/
theorem longRunsSplitGreedily : Obligations.LongRunsSplitGreedily := by
  intro c R T hT
  induction R using Nat.strong_induction_on with
  | _ R ih =>
    by_cases hR : R < 18
    · rw [rleEncode_short_run c R T hR hT, Nat.div_eq_of_lt hR, Nat.mod_eq_of_lt hR]
      rfl
    · obtain ⟨R, rfl⟩ := Nat.exists_eq_add_of_le' (Nat.le_of_not_lt hR)
      rw [rleEncode_full_run, ih R (by omega), Nat.add_div_right R (by decide), Nat.add_mod_right, List.replicate_succ,
        List.flatten_cons]
      simp only [List.append_assoc]

/-! ### No expansion (R130) -/

theorem length_rleEncode_le (T : List Nibble) : (rleEncode T).length ≤ T.length := by
  induction T using rleEncode_induction with
  | nil => exact Nat.le_refl 0
  | group c T ih =>
    have hgroup := length_groupNibbles_le c (scanRun c 18 (c :: T))
    have hscan : groupTiles (scanRun c 18 (c :: T)) ≤ (c :: T).length :=
      (groupTiles_le (by rw [scanRun_self]; omega)).trans (scanRun_le_length c 18 (c :: T))
    rw [rleEncode_cons, List.length_append]
    rw [List.length_drop] at ih
    omega

theorem one_le_length_rleEncode (T : List Nibble) (h : 1 ≤ T.length) : 1 ≤ (rleEncode T).length := by
  cases T with
  | nil => nomatch h
  | cons c T =>
    rw [rleEncode_cons, groupNibbles]
    split <;> simp

/-- Three equal tiles in a row. -/
def HasTriple (T : List Nibble) : Prop :=
  ∃ (j : Nat) (c : Nibble), T[j]? = some c ∧ T[j + 1]? = some c ∧ T[j + 2]? = some c

/-- A scan of three or more is three equal tiles at the front. -/
theorem three_le_scanRun_iff (c : Nibble) (T : List Nibble) :
    3 ≤ scanRun c 18 (c :: T) ↔ T[0]? = some c ∧ T[1]? = some c := by
  match T with
  | [] => simp [scanRun]
  | [x] => by_cases hx : x = c <;> simp [scanRun, hx]
  | x :: y :: T => by_cases hx : x = c <;> by_cases hy : y = c <;> simp [scanRun, hx, hy]

theorem hasTriple_cons_iff (c : Nibble) (T : List Nibble) :
    HasTriple (c :: T) ↔ 3 ≤ scanRun c 18 (c :: T) ∨ HasTriple T := by
  rw [three_le_scanRun_iff]
  constructor
  · rintro ⟨j, d, h0, h1, h2⟩
    cases j with
    | zero =>
      obtain rfl : c = d := Option.some.inj h0
      exact .inl ⟨h1, h2⟩
    | succ j => exact .inr ⟨j, d, h0, h1, h2⟩
  · rintro (⟨h1, h2⟩ | ⟨j, d, h⟩)
    · exact ⟨0, c, rfl, h1, h2⟩
    · exact ⟨j + 1, d, h⟩

/-- Only a RUN saves nibbles, and a RUN stands for at least three equal tiles. -/
theorem length_rleEncode_eq_iff (T : List Nibble) : (rleEncode T).length = T.length ↔ ¬ HasTriple T := by
  induction T using rleEncode_induction with
  | nil => simp [HasTriple]
  | group c T ih =>
    rw [hasTriple_cons_iff, rleEncode_cons, List.length_append]
    by_cases h : scanRun c 18 (c :: T) < 3
    · have hlit : ¬ 3 ≤ scanRun c 18 (c :: T) := Nat.not_le_of_lt h
      rw [groupTiles_lit h, List.drop_one, List.tail_cons] at ih ⊢
      rw [groupNibbles_lit c h, List.length_singleton, List.length_cons, Nat.add_comm, Nat.add_right_cancel_iff, ih]
      simp only [hlit, false_or]
    · have hrest := length_rleEncode_le ((c :: T).drop (scanRun c 18 (c :: T)))
      have hscan := scanRun_le_length c 18 (c :: T)
      rw [groupNibbles_run c h, groupTiles_run h]
      rw [List.length_drop] at hrest
      refine iff_of_false (fun heq => ?_) (fun htriple => htriple (.inl (Nat.le_of_not_lt h)))
      simp only [List.length_cons, List.length_nil] at heq hrest hscan
      omega

/-- Settles O31: the bound, its equality case and the bytes packed. -/
theorem encodingNeverExpands : Obligations.EncodingNeverExpands := by
  intro T
  have hle := length_rleEncode_le T
  have hpack := length_pack (rleEncode T)
  refine ⟨hle, length_rleEncode_eq_iff T, fun hT => ?nonempty, hpack, ?window⟩
  case nonempty =>
    have hK := one_le_length_rleEncode T hT
    exact ⟨hK, by omega⟩
  case window => omega

end Sys2Proof

/-! SUPPORT. The decoder as a function of lists (42_rle_decode.md R145 to R147): `rleDecode` by the tiles still to write
instead of rounds, what a successful decode consumes, and that it undoes `rleEncode` (41_rle_encode.md R132). -/

namespace Sys2Proof

/-! ### Heads (30_encoding.md R85, 40_tile_lut.md R100) -/

theorem terrainCode_of_validCode : ∀ c : Nibble, validCode c = true → terrainCode c = c := by decide

theorem controlBit_of_validCode : ∀ c : Nibble, validCode c = true → controlBit c = false := by decide

theorem terrainValid_of_validCode (c : Nibble) (h : validCode c = true) : terrainValid c = true := by
  rw [terrainValid, terrainCode_of_validCode c h, h]

theorem terrainCode_runHead : ∀ c : Nibble, validCode c = true → terrainCode (c ||| 1) = c := by decide

theorem controlBit_runHead : ∀ c : Nibble, controlBit (c ||| 1) = true := by decide

theorem terrainCode_of_lit : ∀ h : Nibble, controlBit h = false → terrainCode h = h := by decide

/-- A LIT head that is a tile is the code of that tile. -/
theorem validCode_of_lit (h : Nibble) (hv : terrainValid h = true) (hc : controlBit h = false) : validCode h = true := by
  rwa [terrainValid, terrainCode_of_lit h hc] at hv

theorem validCode_code (t : Tile) : validCode t.code = true := by cases t <;> rfl

/-! ### The decoder by the tiles still to write -/

/-- The tiles `T` stand before those of a decode. -/
def prependTiles (T : List Nibble) : Except DecodeFailure (List Nibble × Nat) → Except DecodeFailure (List Nibble × Nat)
  | .error e => .error e
  | .ok (T', p) => .ok (T ++ T', p)

@[simp] theorem prependTiles_error (T : List Nibble) (e : DecodeFailure) : prependTiles T (.error e) = .error e := rfl

@[simp] theorem prependTiles_ok (T T' : List Nibble) (p : Nat) : prependTiles T (.ok (T', p)) = .ok (T ++ T', p) := rfl

@[simp] theorem prependTiles_nil (r : Except DecodeFailure (List Nibble × Nat)) : prependTiles [] r = r := by
  cases r <;> rfl

theorem prependTiles_append (T T' : List Nibble) (r : Except DecodeFailure (List Nibble × Nat)) :
    prependTiles (T ++ T') r = prependTiles T (prependTiles T' r) := by
  cases r with
  | error e => rfl
  | ok x => exact congrArg (fun L => Except.ok (L, x.2)) (List.append_assoc T T' x.1)

/-- The decode of `m` further tiles from the nibbles left, of which the first is number `p` (R147). -/
def decodeTiles (m : Nat) : List Nibble → Nat → Except DecodeFailure (List Nibble × Nat)
  | [], p => if m = 0 then .ok ([], p) else .error (.payloadLengthMismatch, p)
  | h :: rest1, p =>
    if m = 0 then .ok ([], p)
    else if terrainValid h then
      if controlBit h then
        match rest1 with
        | [] => .error (.payloadLengthMismatch, p + 1)
        | n :: rest2 =>
          if n.toNat + 3 > m then .error (.payloadLengthMismatch, p)
          else prependTiles (List.replicate (n.toNat + 3) (terrainCode h)) (decodeTiles (m - (n.toNat + 3)) rest2 (p + 2))
      else prependTiles [h] (decodeTiles (m - 1) rest1 (p + 1))
    else .error (.invalidTileCode, p)

/-- D_COUNT and the tiles after it: the decode of `m` further tiles from the nibbles after a RUN head of code `c`, which is
nibble number `p` (R144). -/
def decodeCount (c : Nibble) (m : Nat) : List Nibble → Nat → Except DecodeFailure (List Nibble × Nat)
  | [], p => .error (.payloadLengthMismatch, p + 1)
  | n :: rest, p =>
    if n.toNat + 3 > m then .error (.payloadLengthMismatch, p)
    else prependTiles (List.replicate (n.toNat + 3) c) (decodeTiles (m - (n.toNat + 3)) rest (p + 2))

@[simp] theorem decodeTiles_zero (rest : List Nibble) (p : Nat) : decodeTiles 0 rest p = .ok ([], p) := by
  cases rest with
  | nil => rfl
  | cons h rest => cases rest <;> rfl

section
variable {m : Nat} (hm : m ≠ 0)
include hm

theorem decodeTiles_nil (p : Nat) : decodeTiles m [] p = .error (.payloadLengthMismatch, p) := by
  rw [decodeTiles, if_neg hm]

theorem decodeTiles_invalid {h : Nibble} (rest : List Nibble) (p : Nat) (hv : terrainValid h = false) :
    decodeTiles m (h :: rest) p = .error (.invalidTileCode, p) := by
  cases rest <;> simp only [decodeTiles, hm, hv, if_false, Bool.false_eq_true]

theorem decodeTiles_lit {h : Nibble} (rest : List Nibble) (p : Nat) (hv : terrainValid h = true)
    (hc : controlBit h = false) : decodeTiles m (h :: rest) p = prependTiles [h] (decodeTiles (m - 1) rest (p + 1)) := by
  cases rest <;> simp only [decodeTiles, hm, hv, hc, if_false, if_true, Bool.false_eq_true]

theorem decodeTiles_run {h : Nibble} (rest : List Nibble) (p : Nat) (hv : terrainValid h = true)
    (hc : controlBit h = true) : decodeTiles m (h :: rest) p = decodeCount (terrainCode h) m rest p := by
  cases rest <;> simp only [decodeTiles, decodeCount, hm, hv, hc, if_false, if_true]

end

/-- The loop of R147 after the tiles `T`, with rounds enough for the tiles left. -/
theorem rleDecodeRounds_eq (N rounds : Nat) (rest : List Nibble) (p : Nat) (T : List Nibble) (hT : T.length ≤ N)
    (hrounds : N ≤ T.length + rounds) :
    rleDecodeRounds N rounds rest p T = prependTiles T (decodeTiles (N - T.length) rest p) := by
  induction rounds generalizing rest p T with
  | zero =>
    have hleft : N - T.length = 0 := Nat.sub_eq_zero_of_le hrounds
    rw [rleDecodeRounds, hleft, decodeTiles_zero, prependTiles_ok, List.append_nil]
  | succ rounds ih =>
    by_cases hend : N = T.length
    · rw [rleDecodeRounds.eq_def]
      simp only [if_neg (show ¬ T.length < N by omega)]
      rw [hend, Nat.sub_self, decodeTiles_zero, prependTiles_ok, List.append_nil]
    have hlt : T.length < N := by omega
    have hm : N - T.length ≠ 0 := by omega
    rw [rleDecodeRounds.eq_def]
    simp only [if_pos hlt]
    cases rest with
    | nil => rw [decodeTiles_nil hm]; rfl
    | cons h rest =>
      cases hv : terrainValid h with
      | false => simp only [hv, Bool.false_eq_true, if_false, decodeTiles_invalid hm rest p hv, prependTiles_error]
      | true =>
        cases hc : controlBit h with
        | false =>
          have hlen : (T ++ [h]).length = T.length + 1 := List.length_append
          simp only [hv, hc, if_true, Bool.false_eq_true, if_false]
          rw [decodeTiles_lit hm rest p hv hc, ← prependTiles_append, Nat.sub_sub, ← hlen]
          exact ih rest (p + 1) (T ++ [h]) (by omega) (by omega)
        | true =>
          simp only [hv, hc, if_true]
          rw [decodeTiles_run hm rest p hv hc]
          cases rest with
          | nil => rfl
          | cons n rest =>
            have hlen : (T ++ List.replicate (n.toNat + 3) (terrainCode h)).length = T.length + (n.toNat + 3) := by
              rw [List.length_append, List.length_replicate]
            by_cases hroom : n.toNat + 3 > N - T.length
            · have hroom' : T.length + n.toNat + 3 > N := by omega
              simp only [decodeCount, if_pos hroom, if_pos hroom', prependTiles_error]
            · have hroom' : ¬ T.length + n.toNat + 3 > N := by omega
              simp only [decodeCount, if_neg hroom, if_neg hroom']
              rw [← prependTiles_append, Nat.sub_sub, ← hlen]
              exact ih rest (p + 2) _ (by omega) (by omega)

/-- The final test of R146: no whole byte of the payload is unread. -/
def checkTail (L : Nat) : Except DecodeFailure (List Nibble × Nat) → Except DecodeFailure (List Nibble × Nat)
  | .error e => .error e
  | .ok (T, p) => if Machine.halfUp p < L then .error (.payloadLengthMismatch, p) else .ok (T, p)

theorem rleDecode_eq (nibs : List Nibble) (L N : Nat) : rleDecode nibs L N = checkTail L (decodeTiles N nibs 0) := by
  rw [rleDecode, rleDecodeRounds_eq N N nibs 0 [] (Nat.zero_le N) (Nat.le_add_left N _), prependTiles_nil]
  rfl

theorem rleDecode_eq_ok (nibs : List Nibble) (L N : Nat) (T : List Nibble) (p : Nat) :
    rleDecode nibs L N = .ok (T, p) ↔ decodeTiles N nibs 0 = .ok (T, p) ∧ L ≤ Machine.halfUp p := by
  rw [rleDecode_eq]
  cases decodeTiles N nibs 0 with
  | error e => simp [checkTail]
  | ok x =>
    obtain ⟨T', p'⟩ := x
    by_cases hp : Machine.halfUp p' < L
    · simp only [checkTail, if_pos hp, Except.ok.injEq, Prod.mk.injEq, reduceCtorEq, false_iff]
      rintro ⟨⟨-, rfl⟩, hL⟩
      omega
    · simp only [checkTail, if_neg hp, Except.ok.injEq, Prod.mk.injEq, iff_self_and]
      rintro ⟨-, rfl⟩
      exact Nat.le_of_not_lt hp

/-! ### What a successful decode consumes (R145, R146) -/

/-- A decode from nibble `p` that gave the tiles `T` and ended at `p'`: it has consumed the nibbles `used`, whatever follows
them, and written `m` tile codes. -/
structure Consumes (m : Nat) (used : List Nibble) (p : Nat) (T : List Nibble) (p' : Nat) : Prop where
  pointer : p' = p + used.length
  count : T.length = m
  codes : ∀ c ∈ T, validCode c = true
  anyRest : ∀ tail, decodeTiles m (used ++ tail) p = .ok (T, p')

theorem consumes_zero (p : Nat) : Consumes 0 [] p [] p := ⟨rfl, rfl, nofun, fun _ => decodeTiles_zero _ p⟩

theorem prependTiles_eq_ok {T T' : List Nibble} {r : Except DecodeFailure (List Nibble × Nat)} {p : Nat}
    (h : prependTiles T r = .ok (T', p)) : ∃ T'', r = .ok (T'', p) ∧ T' = T ++ T'' := by
  cases r with
  | error e => nomatch h
  | ok x => cases h; exact ⟨x.1, rfl, rfl⟩

theorem consumes_lit {m : Nat} {h : Nibble} {used T : List Nibble} {p p' : Nat} (hm : m ≠ 0)
    (hv : terrainValid h = true) (hc : controlBit h = false) (hrest : Consumes (m - 1) used (p + 1) T p') :
    Consumes m (h :: used) p (h :: T) p' where
  pointer := by rw [hrest.pointer, List.length_cons]; omega
  count := by rw [List.length_cons, hrest.count]; omega
  codes := List.forall_mem_cons.mpr ⟨validCode_of_lit h hv hc, hrest.codes⟩
  anyRest tail := by rw [List.cons_append, decodeTiles_lit hm _ p hv hc, hrest.anyRest tail]; rfl

theorem consumes_run {m : Nat} {h n : Nibble} {used T : List Nibble} {p p' : Nat} (hv : terrainValid h = true)
    (hc : controlBit h = true) (hroom : n.toNat + 3 ≤ m) (hrest : Consumes (m - (n.toNat + 3)) used (p + 2) T p') :
    Consumes m (h :: n :: used) p (List.replicate (n.toNat + 3) (terrainCode h) ++ T) p' where
  pointer := by simp only [hrest.pointer, List.length_cons]; omega
  count := by rw [List.length_append, List.length_replicate, hrest.count]; omega
  codes := List.forall_mem_append.mpr ⟨fun c hmem => List.eq_of_mem_replicate hmem ▸ hv, hrest.codes⟩
  anyRest tail := by
    rw [List.cons_append, decodeTiles_run (by omega) _ p hv hc, List.cons_append, decodeCount,
      if_neg (Nat.not_lt_of_le hroom), hrest.anyRest tail]
    rfl

theorem consumes_of_decodeTiles (m : Nat) : ∀ (nibs : List Nibble) (p : Nat) (T : List Nibble) (p' : Nat),
    decodeTiles m nibs p = .ok (T, p') → ∃ used rest, nibs = used ++ rest ∧ Consumes m used p T p' := by
  induction m using Nat.strong_induction_on with
  | _ m ih =>
    intro nibs p T p' hok
    by_cases hm : m = 0
    · subst hm
      rw [decodeTiles_zero] at hok
      cases hok
      exact ⟨[], nibs, rfl, consumes_zero p⟩
    cases nibs with
    | nil => rw [decodeTiles_nil hm] at hok; nomatch hok
    | cons h nibs =>
      cases hv : terrainValid h with
      | false => rw [decodeTiles_invalid hm nibs p hv] at hok; nomatch hok
      | true =>
        cases hc : controlBit h with
        | false =>
          rw [decodeTiles_lit hm nibs p hv hc] at hok
          obtain ⟨T', hok', rfl⟩ := prependTiles_eq_ok hok
          obtain ⟨used, rest, rfl, hrest⟩ := ih (m - 1) (by omega) nibs (p + 1) T' p' hok'
          exact ⟨h :: used, rest, rfl, consumes_lit hm hv hc hrest⟩
        | true =>
          rw [decodeTiles_run hm nibs p hv hc] at hok
          cases nibs with
          | nil => nomatch hok
          | cons n nibs =>
            by_cases hroom : n.toNat + 3 > m
            · rw [decodeCount, if_pos hroom] at hok; nomatch hok
            rw [decodeCount, if_neg hroom] at hok
            obtain ⟨T', hok', rfl⟩ := prependTiles_eq_ok hok
            obtain ⟨used, rest, rfl, hrest⟩ := ih (m - (n.toNat + 3)) (by omega) nibs (p + 2) T' p' hok'
            exact ⟨h :: n :: used, rest, rfl, consumes_run hv hc (Nat.le_of_not_lt hroom) hrest⟩

/-- Settles O35: the pointer has passed the nibbles consumed, and the tail test leaves no whole byte unread. -/
theorem successfulDecodeHasExactCounts : Obligations.SuccessfulDecodeHasExactCounts := by
  intro nibs T L N p hlen hok
  obtain ⟨hdecode, htail⟩ := (rleDecode_eq_ok nibs L N T p).mp hok
  obtain ⟨used, rest, rfl, huse⟩ := consumes_of_decodeTiles N nibs 0 T p hdecode
  have hp : p = used.length := huse.pointer.trans (Nat.zero_add _)
  rw [List.length_append] at hlen
  rw [Machine.halfUp] at htail
  exact ⟨huse.count, huse.codes, by omega, by omega, by omega⟩

/-- Settles O36: the nibbles consumed decode to the same whatever follows them. -/
theorem padNibbleIsNeverRead : Obligations.PadNibbleIsNeverRead := by
  intro nibs nibs' T L N p hlen hlen' htake hok
  obtain ⟨hdecode, htail⟩ := (rleDecode_eq_ok nibs L N T p).mp hok
  obtain ⟨used, rest, rfl, huse⟩ := consumes_of_decodeTiles N nibs 0 T p hdecode
  have hp : p = used.length := huse.pointer.trans (Nat.zero_add _)
  have hused : nibs'.take p = used := by rw [htake, hp, List.take_left]
  have hsplit : nibs' = used ++ nibs'.drop p := by rw [← hused, List.take_append_drop]
  refine (rleDecode_eq_ok nibs' L N T p).mpr ⟨?_, htail⟩
  rw [hsplit]
  exact huse.anyRest _

/-! ### Decoding undoes encoding (41_rle_encode.md R132) -/

/-- The decode of one group gives its tiles and goes on after it. -/
theorem decodeTiles_group (c : Nibble) (r m : Nat) (rest : List Nibble) (p : Nat) (hv : validCode c = true)
    (hr : r ≤ 18) (hm : groupTiles r ≤ m) :
    decodeTiles m (groupNibbles c r ++ rest) p =
      prependTiles (List.replicate (groupTiles r) c)
        (decodeTiles (m - groupTiles r) rest (p + (groupNibbles c r).length)) := by
  have hpos := groupTiles_pos r
  have hne : m ≠ 0 := by omega
  by_cases h : r < 3
  · rw [groupNibbles_lit c h, groupTiles_lit h]
    exact decodeTiles_lit hne rest p (terrainValid_of_validCode c hv) (controlBit_of_validCode c hv)
  · rw [groupTiles_run h] at hm
    have hterrain : terrainValid (c ||| 1) = true := by rw [terrainValid, terrainCode_runHead c hv, hv]
    have hcount : (BitVec.ofNat 4 (r - 3)).toNat + 3 = r := by
      rw [BitVec.toNat_ofNat, Nat.mod_eq_of_lt (by omega)]
      omega
    rw [groupNibbles_run c h, groupTiles_run h, List.cons_append,
      decodeTiles_run hne _ p hterrain (controlBit_runHead c), terrainCode_runHead c hv, List.cons_append, decodeCount,
      hcount, if_neg (Nat.not_lt_of_le hm)]
    rfl

theorem decodeTiles_rleEncode (T pad : List Nibble) (p : Nat) (hT : ∀ c ∈ T, validCode c = true) :
    decodeTiles T.length (rleEncode T ++ pad) p = .ok (T, p + (rleEncode T).length) := by
  induction T using rleEncode_induction generalizing p with
  | nil => exact decodeTiles_zero _ p
  | group c T ih =>
    have hscan := scanRun_le_length c 18 (c :: T)
    have hgroup : groupTiles (scanRun c 18 (c :: T)) ≤ scanRun c 18 (c :: T) :=
      groupTiles_le (by rw [scanRun_self]; omega)
    have hrun : List.replicate (groupTiles (scanRun c 18 (c :: T))) c =
        (c :: T).take (groupTiles (scanRun c 18 (c :: T))) := by
      rw [← Nat.min_eq_left hgroup, ← List.take_take, take_scanRun, List.take_replicate, Nat.min_eq_left hgroup]
    have hrest := ih (p + (groupNibbles c (scanRun c 18 (c :: T))).length) fun d hd => hT d (List.mem_of_mem_drop hd)
    rw [List.length_drop] at hrest
    rw [rleEncode_cons, List.append_assoc, decodeTiles_group c _ _ _ p (hT c List.mem_cons_self)
      (scanRun_le_cap c 18 _) (hgroup.trans hscan), hrest, prependTiles_ok, hrun, List.take_append_drop, Nat.add_assoc,
      ← List.length_append]

/-- Settles O34: group by group the decoder writes the tiles back, and what it leaves is less than a byte. -/
theorem decodeOfEncodedTilesIsTheTiles : Obligations.DecodeOfEncodedTilesIsTheTiles := by
  intro T hT
  refine (rleDecode_eq_ok _ _ _ _ _).mpr ⟨?_, ?_⟩
  · rw [unpackBytes_pack, decodeTiles_rleEncode T _ 0 hT, Nat.zero_add]
  · rw [length_pack, Machine.halfUp]

end Sys2Proof

/-! SUPPORT. The two encoded forms (30_encoding.md): a command word is its bits 15 and 4:0 (R81 to R84), and a token is a
head nibble of one of three kinds, with a count nibble after a RUN head (R85 to R88). -/

namespace Sys2Proof

open Sys2Proof.Machine (startCommands command_of_encode_eq_word regWrite regWrite_ctrl)

/-! ### The bits of a command word that are not reserved (R81, R84) -/

/-- The word with bit 15 and bits 4:0 as given and every reserved bit 0. -/
def plainWord (srst : Bool) (low : BitVec 5) : Word := low.setWidth 32 ||| (if srst then 0x8000#32 else 0#32)

theorem mask_eq_plainWord (v : Word) : v &&& 0x0000801F = plainWord (v.getLsbD 15) (v.extractLsb' 0 5) := by
  refine BitVec.eq_of_getLsbD_eq fun j hj => ?_
  rw [BitVec.getLsbD_eq_getElem (by decide : 15 < 32)]
  cases hs : v[15] <;> interval_cases j <;> simp [plainWord, hs]

theorem opField_mask (v : Word) : opField (v &&& 0x0000801F) = opField v := by
  refine BitVec.eq_of_getLsbD_eq fun j hj => ?_
  interval_cases j <;> simp [opField]

theorem mapField_mask (v : Word) : mapField (v &&& 0x0000801F) = mapField v := by simp [mapField]

/-- Decoding looks at bits 15 and 4:0 only. -/
theorem decodeCommand_mask (v : Word) : decodeCommand (v &&& 0x0000801F) = decodeCommand v := by
  have h15 : (v &&& 0x0000801F).getLsbD 15 = v.getLsbD 15 := by simp
  have h0 : (v &&& 0x0000801F).getLsbD 0 = v.getLsbD 0 := by simp
  rw [decodeCommand, h15, h0, opField_mask, mapField_mask]
  rfl

/-- Settles O2: the decoder sees the unreserved bits alone, and the write acts by what it decodes to. -/
theorem reservedCommandBitsAreIgnored : Obligations.ReservedCommandBitsAreIgnored := by
  intro v w h
  have hdecode : decodeCommand v = decodeCommand w := by rw [← decodeCommand_mask v, h, decodeCommand_mask]
  exact ⟨hdecode, fun s => by rw [regWrite_ctrl, hdecode, regWrite_ctrl]⟩

/-- No command row looks at a reserved bit. -/
theorem matches_mask (v : Word) (row : OpcodeRow) (hrow : row ∈ commandRows) :
    row.matches (v &&& 0x0000801F) = row.matches v := by
  have hmask : ∀ row ∈ commandRows, 0x0000801F &&& row.mask = row.mask := by decide
  rw [OpcodeRow.matches, BitVec.and_assoc, hmask row hrow, OpcodeRow.matches]

/-- R80 for the 64 words without reserved bits. -/
theorem plainWord_matches : ∀ (srst : Bool) (low : BitVec 5),
    (commandRows.filter fun row => row.matches (plainWord srst low)).length = 1 ∧
      (decodeCommand (plainWord srst low)).row ∈ commandRows ∧
      (decodeCommand (plainWord srst low)).row.matches (plainWord srst low) = true := by
  decide

/-- Settles O1: the rows and the decoder see only the bits of a plain word, and there are 64 of these. -/
theorem commandWordMatchesExactlyOneRow : Obligations.CommandWordMatchesExactlyOneRow := by
  intro v
  obtain ⟨hone, hmem, hmatch⟩ := plainWord_matches (v.getLsbD 15) (v.extractLsb' 0 5)
  rw [← mask_eq_plainWord, decodeCommand_mask] at hmem hmatch
  rw [← mask_eq_plainWord, List.filter_congr fun row hrow => matches_mask v row hrow] at hone
  exact ⟨hone, hmem, matches_mask v _ hmem ▸ hmatch⟩

/-! ### Decoding an encoded command -/

theorem decodeCommand_setcfg : ∀ (op : BitVec 3) (map : Bool),
    decodeCommand (commandWord op map false) = .setcfg op map := by decide

theorem encode_startCommands : ∀ map, ∀ x ∈ startCommands map, encode x.1 = .word (commandWord x.2 map true) := by decide

theorem decodeCommand_start : ∀ map, ∀ x ∈ startCommands map, decodeCommand (commandWord x.2 map true) = x.1 := by decide

theorem decodeCommand_encode (i : Instr) (v : Word) (h : encode i = .word v) : decodeCommand v = i := by
  rcases command_of_encode_eq_word i v h with rfl | ⟨op, map, rfl⟩ | ⟨op, map, hmem⟩
  · obtain rfl : 0x00008000#32 = v := Encoding.word.inj h
    decide
  · obtain rfl : commandWord op map false = v := Encoding.word.inj h
    exact decodeCommand_setcfg op map
  · have hword : encode i = .word (commandWord op map true) := encode_startCommands map (i, op) hmem
    obtain rfl : commandWord op map true = v := Encoding.word.inj (hword.symm.trans h)
    exact decodeCommand_start map (i, op) hmem

/-! ### The three kinds of head nibble (R85, R86) -/

/-- The LIT token of a tile. -/
def litInstr : Tile → Instr
  | .floor => .litFloor
  | .wall => .litWall
  | .goal => .litGoal
  | .box => .litBox
  | .boxOnGoal => .litBoxGoal

/-- The RUN token of a tile, with its count nibble's value. -/
def runInstr : Tile → Nat → Instr
  | .floor => .runFloor
  | .wall => .runWall
  | .goal => .runGoal
  | .box => .runBox
  | .boxOnGoal => .runBoxGoal

/-- The heads whose terrain bits are no tile, with their tokens. -/
def invalidHeads : List (Nibble × Instr) := [(0x6, .inv6), (0x7, .inv7), (0xA, .invA), (0xB, .invB), (0xE, .invE), (0xF, .invF)]

/-- What a head nibble is. -/
inductive HeadKind (h : Nibble) : Prop where
  | lit (t : Tile) (eq : h = t.code)
  | run (t : Tile) (eq : h = t.code ||| 1)
  | invalid (i : Instr) (mem : (h, i) ∈ invalidHeads)

theorem head_of_terrain : ∀ (t : Tile) (h : Nibble), tileOfCode (terrainCode h) = some t →
    h = if controlBit h then t.code ||| 1 else t.code := by
  intro t
  cases t <;> decide

theorem invalidHead_of_terrain : ∀ h : Nibble, tileOfCode (terrainCode h) = none → ∃ x ∈ invalidHeads, x.1 = h := by decide

theorem headKind (h : Nibble) : HeadKind h := by
  cases ht : tileOfCode (terrainCode h) with
  | none =>
    obtain ⟨⟨_, i⟩, hmem, rfl⟩ := invalidHead_of_terrain h ht
    exact .invalid i hmem
  | some t =>
    have heq := head_of_terrain t h ht
    cases hc : controlBit h with
    | false => exact .lit t (by rwa [hc] at heq)
    | true => exact .run t (by rwa [hc] at heq)

theorem decodeToken_lit (t : Tile) (rest : List Nibble) : decodeToken (t.code :: rest) = .ok (litInstr t, rest) := by
  cases t <;> rfl

theorem decodeToken_run (t : Tile) (rest : List Nibble) :
    decodeToken ((t.code ||| 1) :: rest) = withCount (runInstr t) rest := by
  cases t <;> rfl

theorem decodeToken_invalid (rest : List Nibble) : ∀ x ∈ invalidHeads, decodeToken (x.1 :: rest) = .ok (x.2, rest) := by
  simp only [invalidHeads, List.forall_mem_cons]
  exact ⟨rfl, rfl, rfl, rfl, rfl, rfl, fun _ h => nomatch h⟩

theorem encode_litInstr (t : Tile) : encode (litInstr t) = .nibbles [t.code] := by cases t <;> rfl

theorem encode_runInstr (t : Tile) (n : Nat) : encode (runInstr t n) = .nibbles [t.code ||| 1, BitVec.ofNat 4 n] := by
  cases t <;> rfl

theorem encode_invalidHeads : ∀ x ∈ invalidHeads, encode x.2 = .nibbles [x.1] := by decide

theorem wellFormed_litInstr (t : Tile) : (litInstr t).wellFormed = true := by cases t <;> rfl

theorem wellFormed_runInstr (t : Tile) (n : Nat) : (runInstr t n).wellFormed = countFits n := by cases t <;> rfl

theorem wellFormed_invalidHeads : ∀ x ∈ invalidHeads, x.2.wellFormed = true := by decide

/-! ### Tokens there and back -/

/-- The instructions that are tokens: the three kinds of head. -/
theorem token_of_encode_eq_nibbles (i : Instr) (ns : List Nibble) (h : encode i = .nibbles ns) :
    (∃ t, i = litInstr t) ∨ (∃ t n, i = runInstr t n) ∨ ∃ head, (head, i) ∈ invalidHeads := by
  cases i with
  | litFloor => exact .inl ⟨.floor, rfl⟩
  | litWall => exact .inl ⟨.wall, rfl⟩
  | litGoal => exact .inl ⟨.goal, rfl⟩
  | litBox => exact .inl ⟨.box, rfl⟩
  | litBoxGoal => exact .inl ⟨.boxOnGoal, rfl⟩
  | runFloor n => exact .inr (.inl ⟨.floor, n, rfl⟩)
  | runWall n => exact .inr (.inl ⟨.wall, n, rfl⟩)
  | runGoal n => exact .inr (.inl ⟨.goal, n, rfl⟩)
  | runBox n => exact .inr (.inl ⟨.box, n, rfl⟩)
  | runBoxGoal n => exact .inr (.inl ⟨.boxOnGoal, n, rfl⟩)
  | inv6 => exact .inr (.inr ⟨0x6, by decide⟩)
  | inv7 => exact .inr (.inr ⟨0x7, by decide⟩)
  | invA => exact .inr (.inr ⟨0xA, by decide⟩)
  | invB => exact .inr (.inr ⟨0xB, by decide⟩)
  | invE => exact .inr (.inr ⟨0xE, by decide⟩)
  | invF => exact .inr (.inr ⟨0xF, by decide⟩)
  | _ => nomatch h

theorem decodeToken_encode (i : Instr) (ns rest : List Nibble) (hwf : i.wellFormed = true) (h : encode i = .nibbles ns) :
    decodeToken (ns ++ rest) = .ok (i, rest) := by
  rcases token_of_encode_eq_nibbles i ns h with ⟨t, rfl⟩ | ⟨t, n, rfl⟩ | ⟨head, hmem⟩
  · rw [encode_litInstr] at h
    cases h
    exact decodeToken_lit t rest
  · rw [encode_runInstr] at h
    cases h
    rw [wellFormed_runInstr, countFits, decide_eq_true_iff] at hwf
    have hcount : (BitVec.ofNat 4 n).toNat = n := Nat.mod_eq_of_lt hwf
    exact (decodeToken_run t _).trans (congrArg (fun n => Except.ok (runInstr t n, rest)) hcount)
  · rw [encode_invalidHeads _ hmem] at h
    cases h
    exact decodeToken_invalid rest _ hmem

/-- Settles O3: a command by its unreserved bits, a token by its head's kind. -/
theorem decodeOfEncodeIsTheInstruction : Obligations.DecodeOfEncodeIsTheInstruction := by
  intro i hwf
  refine ⟨fun v hv w hw => ?word, fun ns hns rest => decodeToken_encode i ns rest hwf hns⟩
  case word => rw [decode, ← decodeCommand_mask, hw, decodeCommand_encode i v hv]

/-- Settles O4: by the kind of the head nibble. -/
theorem encodeOfDecodedTokenIsWhatWasRead : Obligations.EncodeOfDecodedTokenIsWhatWasRead := by
  intro ns rest i hok
  cases ns with
  | nil => nomatch hok
  | cons h tl =>
    cases headKind h with
    | lit t heq =>
      rw [heq, decodeToken_lit] at hok
      cases hok
      exact ⟨wellFormed_litInstr t, [t.code], encode_litInstr t, by rw [heq, List.singleton_append]⟩
    | run t heq =>
      rw [heq, decodeToken_run] at hok
      cases tl with
      | nil => nomatch hok
      | cons n tl =>
        cases hok
        refine ⟨(wellFormed_runInstr t _).trans (decide_eq_true n.isLt), _, encode_runInstr t _, ?_⟩
        rw [heq, BitVec.ofNat_toNat, BitVec.setWidth_eq]
        rfl
    | invalid j hmem =>
      rw [decodeToken_invalid tl _ hmem] at hok
      cases hok
      exact ⟨wellFormed_invalidHeads _ hmem, [h], encode_invalidHeads _ hmem, rfl⟩

/-- Settles O5: the five LIT heads, the five RUN heads and the six invalid ones. -/
theorem headNibbleTable : Obligations.HeadNibbleTable := fun n rest =>
  ⟨decodeToken_lit .floor _, decodeToken_run .floor _, decodeToken_lit .wall _, decodeToken_run .wall _,
    decodeToken_lit .goal _, decodeToken_run .goal _, decodeToken_invalid _ (0x6, _) (by decide),
    decodeToken_invalid _ (0x7, _) (by decide), decodeToken_lit .box _, decodeToken_run .box _,
    decodeToken_invalid _ (0xA, _) (by decide), decodeToken_invalid _ (0xB, _) (by decide),
    decodeToken_lit .boxOnGoal _, decodeToken_run .boxOnGoal _, decodeToken_invalid _ (0xE, _) (by decide),
    decodeToken_invalid _ (0xF, _) (by decide)⟩

/-- Settles O6: nine closed words. -/
theorem writtenOutWordsDecode : Obligations.WrittenOutWordsDecode := by
  unfold Obligations.WrittenOutWordsDecode
  decide

end Sys2Proof

/-! SUPPORT. The level container (20_memory.md R67 to R73): where each level stands in the blob, and that reading it there
gives it back. -/

namespace Sys2Proof.Machine

/-! ### One level (R67) -/

/-- Every header field fits (R72). -/
def Level.Fits (l : Level) : Prop :=
  l.width < 256 ∧ l.height < 256 ∧ l.playerX < 256 ∧ l.playerY < 256 ∧ l.payload.length < 65536

/-- The header and the payload of a level whose fields fit. -/
def Level.block (l : Level) : List Byte :=
  BitVec.ofNat 8 l.width :: BitVec.ofNat 8 l.height :: BitVec.ofNat 8 (l.payload.length / 256) ::
    BitVec.ofNat 8 l.payload.length :: BitVec.ofNat 8 l.playerX :: BitVec.ofNat 8 l.playerY :: l.payload

theorem length_block (l : Level) : l.block.length = 6 + l.payload.length := by
  simp only [Level.block, List.length_cons]
  omega

theorem level_bytes_eq_ok (l : Level) (bs : List Byte) : l.bytes = .ok bs ↔ l.Fits ∧ bs = l.block := by
  unfold Level.bytes Level.Fits
  by_cases h : l.width < 256 ∧ l.height < 256 ∧ l.playerX < 256 ∧ l.playerY < 256 ∧ l.payload.length < 65536
  · rw [if_pos h, Except.ok.injEq, eq_comm]
    exact (and_iff_right h).symm
  · rw [if_neg h]
    exact iff_of_false nofun fun ⟨hfits, _⟩ => h hfits

/-! ### The blob and its table (R69, R70) -/

/-- The offsets of levels that stand one after another from `start`. -/
def levelOffsets (start : Nat) : List Level → List Nat
  | [] => []
  | l :: rest => start :: levelOffsets (start + l.block.length) rest

theorem length_levelOffsets (start : Nat) (levels : List Level) : (levelOffsets start levels).length = levels.length := by
  induction levels generalizing start with
  | nil => rfl
  | cons l rest ih => exact congrArg (· + 1) (ih _)

/-- Level `j` stands after the levels before it. -/
theorem getElem?_levelOffsets (start : Nat) (levels : List Level) (j : Nat) (hj : j < levels.length) :
    (levelOffsets start levels)[j]? = some (start + ((levels.take j).flatMap Level.block).length) := by
  induction levels generalizing start j with
  | nil => nomatch hj
  | cons l rest ih =>
    cases j with
    | zero => rfl
    | succ j =>
      rw [levelOffsets, List.getElem?_cons_succ, ih _ j (Nat.lt_of_succ_lt_succ hj), List.take_succ_cons,
        List.flatMap_cons, List.length_append, Nat.add_assoc]

/-- All that a container's building does: the levels' blocks go to the blob, their offsets to the table. -/
structure Builds (levels : List Level) (blob : List Byte) (table : List Nat) (blob' : List Byte) (table' : List Nat) :
    Prop where
  blob_eq : blob' = blob ++ levels.flatMap Level.block
  table_eq : table' = table ++ levelOffsets blob.length levels
  capacity : blob'.length ≤ 65535
  fits : ∀ l ∈ levels, l.Fits

theorem builds_of_buildContainer (levels : List Level) (blob blob' : List Byte) (table table' : List Nat)
    (hlen : blob.length ≤ 65535) (hok : buildContainer levels blob table = .ok (blob', table')) :
    Builds levels blob table blob' table' := by
  induction levels generalizing blob table with
  | nil =>
    cases hok
    exact ⟨(List.append_nil _).symm, (List.append_nil _).symm, hlen, nofun⟩
  | cons l rest ih =>
    rw [buildContainer] at hok
    cases hbytes : l.bytes with
    | error e => rw [hbytes] at hok; nomatch hok
    | ok bs =>
      obtain ⟨hfits, rfl⟩ := (level_bytes_eq_ok l bs).mp hbytes
      by_cases hroom : (blob ++ l.block).length ≤ 65535
      · simp only [hbytes, if_pos hroom] at hok
        obtain ⟨hblob, htable, hcap, hrest⟩ := ih (blob ++ l.block) (table ++ [blob.length]) hroom hok
        refine ⟨?blob, ?table, hcap, List.forall_mem_cons.mpr ⟨hfits, hrest⟩⟩
        case blob => rw [hblob, List.flatMap_cons, List.append_assoc]
        case table => rw [htable, List.length_append, List.append_assoc, levelOffsets, List.singleton_append]
      · simp only [hbytes, if_neg hroom] at hok
        nomatch hok

theorem length_flatMap_block (levels : List Level) :
    (levels.flatMap Level.block).length = (levels.map fun l => 6 + l.payload.length).sum := by
  rw [List.length_flatMap]
  exact congrArg List.sum (List.map_congr_left fun l _ => length_block l)

/-- Settles O54: the offset of a level is the length of the blocks before it. -/
theorem offsetTableSumsTheLevels : Obligations.OffsetTableSumsTheLevels := by
  intro levels blob table hok
  obtain ⟨-, htable, hcap, -⟩ := builds_of_buildContainer levels [] blob [] table (Nat.zero_le _) hok
  rw [List.nil_append, List.length_nil] at htable
  refine ⟨?_, hcap, fun j hj => ?_⟩
  · rw [htable, length_levelOffsets]
  · rw [htable, getElem?_levelOffsets 0 levels j hj, Nat.zero_add, length_flatMap_block]

/-! ### Reading a level back (R71) -/

theorem tilesOf_map_code (cells : List Tile) : tilesOf (cells.map Tile.code) = some cells := by
  induction cells with
  | nil => rfl
  | cons t cells ih =>
    have ht : tileOfCode t.code = some t := by cases t <;> rfl
    simp only [List.map_cons, tilesOf, ht, ih]

theorem byte_toNat {n : Nat} (h : n < 256) : (BitVec.ofNat 8 n).toNat = n := Nat.mod_eq_of_lt h

/-- The payload length is read from its two header bytes. -/
theorem payload_len_of_header {len : Nat} (h : len < 65536) :
    (BitVec.ofNat 8 (len / 256)).toNat * 256 + (BitVec.ofNat 8 len).toNat = len := by
  rw [byte_toNat (by omega), BitVec.toNat_ofNat]
  omega

theorem length_cells_of_ok (l : Level) (h : l.ok = true) : l.cells.length = l.width * l.height := by
  simp only [Level.ok, Bool.and_eq_true, decide_eq_true_eq] at h
  obtain ⟨⟨⟨⟨_, hcells⟩, _⟩, _⟩, _⟩ := h
  exact hcells

theorem rleDecode_payload (l : Level) (h : l.ok = true) :
    rleDecode (unpackBytes l.payload) l.payload.length (l.width * l.height) =
      .ok (l.cells.map Tile.code, (rleEncode (l.cells.map Tile.code)).length) := by
  have hcodes : ∀ c ∈ l.cells.map Tile.code, validCode c = true := by
    intro c hc
    obtain ⟨t, -, rfl⟩ := List.mem_map.mp hc
    exact validCode_code t
  have hdecode := decodeOfEncodedTilesIsTheTiles (l.cells.map Tile.code) hcodes
  rwa [List.length_map, length_cells_of_ok l h] at hdecode

theorem readLevel_of_block (blob : List Byte) (table : List Nat) (j h : Nat) (l : Level) (rest : List Byte)
    (htable : table[j]? = some h) (hblob : blob.drop h = l.block ++ rest) (hfits : l.Fits) (hok : l.ok = true) :
    readLevel blob table j = .ok l := by
  obtain ⟨hw, hht, hx, hy, hlen⟩ := hfits
  have hroom : ¬ (l.payload ++ rest).length < l.payload.length := by
    rw [List.length_append]
    omega
  simp only [readLevel, htable, hblob, Level.block, List.cons_append, byte_toNat hw, byte_toNat hht, byte_toNat hx,
    byte_toNat hy, payload_len_of_header hlen, if_neg hroom, List.take_left, rleDecode_payload l hok, tilesOf_map_code]

/-- Settles O55: the table leads to the level's block, and its payload decodes to its cells. -/
theorem containerReadsBack : Obligations.ContainerReadsBack := by
  intro levels blob table hlegal hok j l hl
  obtain ⟨hblob, htable, -, hfits⟩ := builds_of_buildContainer levels [] blob [] table (Nat.zero_le _) hok
  obtain ⟨hj, hget⟩ := List.getElem?_eq_some_iff.mp hl
  have hmem : l ∈ levels := List.mem_of_getElem? hl
  have hsplit : levels = levels.take j ++ l :: levels.drop (j + 1) := by
    rw [← hget, List.cons_getElem_drop_succ, List.take_append_drop]
  refine readLevel_of_block blob table j ((levels.take j).flatMap Level.block).length l
    ((levels.drop (j + 1)).flatMap Level.block) ?table ?blob (hfits l hmem) (hlegal l hmem)
  case table => rw [htable, List.nil_append, getElem?_levelOffsets _ levels j hj, List.length_nil, Nat.zero_add]
  case blob =>
    have hblocks : levels.flatMap Level.block = (levels.take j).flatMap Level.block ++
        (l.block ++ (levels.drop (j + 1)).flatMap Level.block) := by
      rw [← List.flatMap_cons, ← List.flatMap_append, ← hsplit]
    rw [hblob, List.nil_append, hblocks, List.drop_left]

end Sys2Proof.Machine

/-! SUPPORT. What any step can do, in every state, legal or not: it keeps the buffers canonical and inside their sizes, the
sizes themselves and the four combinations of STATUS (20_memory.md R51, 10_state.md R23). -/

namespace Sys2Proof.Machine

/-! ### What a meaning answers -/

/-- `x` stops, or answers a state with the property `P`. -/
def Keeps (P : State → Prop) (x : Result) : Prop := ∀ t, x = .next t → P t

section
variable {P Q : State → Prop}

theorem keeps_next {s : State} (h : P s) : Keeps P (.next s) := by
  rintro _ ⟨⟩
  exact h

theorem keeps_of_eq {x y : Result} (h : x = y) (hy : Keeps P y) : Keeps P x := h ▸ hy

theorem keeps_fault (e : Fault) : Keeps P (.fault e) := by
  intro t h
  cases h

theorem keeps_andThen {x : Result} {f : State → Result} (hx : Keeps Q x) (hf : ∀ s, Q s → Keeps P (f s)) :
    Keeps P (andThen x f) := by
  intro t ht
  obtain ⟨s, hs, hft⟩ := (andThen_eq_next x f t).mp ht
  exact hf s (hx s hs) t hft

theorem keeps_memRead {s : State} {a : Nat} {use : Byte → Result} (h : ∀ b, Keeps P (use b)) : Keeps P (memRead s a use) :=
  fun t ht => h _ t ((memRead_eq_next s a use t).mp ht).2

theorem keeps_readTileCode {s : State} {j : Nat} {use : Nibble → Result} (h : ∀ c, Keeps P (use c)) :
    Keeps P (readTileCode s j use) := by
  intro t ht
  obtain ⟨-, tile, -, huse⟩ := (readTileCode_eq_next s j use t).mp ht
  exact h _ t huse

theorem keeps_readNibble {s : State} {q : Nat} {use : Nibble → Result} (h : ∀ n, Keeps P (use n)) :
    Keeps P (readNibble s q use) :=
  fun t ht => h _ t ((readNibble_eq_next s q use t).mp ht).2

end

/-! ### Tame changes of the state -/

/-- What every move keeps of a state. -/
structure Tame (s t : State) : Prop where
  srcSize : t.srcSize = s.srcSize
  dstSize : t.dstSize = s.dstSize
  srcWf : s.src.wf = true → t.src.wf = true
  dstWf : s.dst.wf = true → t.dst.wf = true
  srcWithin : s.src.within s.srcSize = true → t.src.within s.srcSize = true
  dstWithin : s.dst.within s.dstSize = true → t.dst.within s.dstSize = true
  status : StatusLegal s → StatusLegal t

theorem tame_refl (s : State) : Tame s s := ⟨rfl, rfl, id, id, id, id, id⟩

theorem tame_trans {s t u : State} (h : Tame s t) (h' : Tame t u) : Tame s u where
  srcSize := h'.srcSize.trans h.srcSize
  dstSize := h'.dstSize.trans h.dstSize
  srcWf := h'.srcWf ∘ h.srcWf
  dstWf := h'.dstWf ∘ h.dstWf
  srcWithin hs := h.srcSize ▸ h'.srcWithin (h.srcSize.symm ▸ h.srcWithin hs)
  dstWithin hs := h.dstSize ▸ h'.dstWithin (h.dstSize.symm ▸ h.dstWithin hs)
  status := h'.status ∘ h.status

theorem tame_dstSet (s : State) (a : Nat) (b : Byte) (ha : a < s.dstSize) : Tame s { s with dst := s.dst.set a b } :=
  ⟨rfl, rfl, id, wf_set _ _ _, id, within_set _ _ _ _ ha, id⟩

theorem tame_srcSet (s : State) (a : Nat) (b : Byte) (ha : a < s.srcSize) : Tame s { s with src := s.src.set a b } :=
  ⟨rfl, rfl, wf_set _ _ _, id, within_set _ _ _ _ ha, id, id⟩

theorem tame_windowUnspecified (s : State) : Tame s s.windowUnspecified :=
  ⟨rfl, rfl, id, wf_fillWindow _ _ _ _ _, id, within_fillWindow _ _ _ _ _, id⟩

theorem code_ne_zero (e : ErrorName) : e.code ≠ 0 := by cases e <;> decide

/-- Error completion: DONE and ERR with a code that is not 0 (R180, R183). -/
theorem tame_recordError (e : ErrorName) (pos : Nat) (s : State) : Tame s (s.recordError e pos) where
  srcSize := rfl
  dstSize := rfl
  srcWf := id
  dstWf := id
  srcWithin := id
  dstWithin := id
  status _ := ⟨.inr (.inr (.inr rfl)), iff_of_true (code_ne_zero e) rfl⟩

theorem tame_raiseError (e : ErrorName) (pos : Nat) (s : State) : Tame s (raiseError e pos s) := by
  unfold raiseError
  split
  · exact tame_trans (tame_windowUnspecified s) (tame_recordError e pos _)
  · exact tame_recordError e pos s

theorem tame_complete {s t : State} (h : Tame s t) : Tame s (complete t) :=
  tame_trans h ⟨rfl, rfl, id, id, id, id, fun _ => ⟨.inr (.inr (.inl rfl)), iff_of_false (· rfl) nofun⟩⟩

theorem tame_registersReset (s : State) : Tame s s.registersReset :=
  ⟨rfl, rfl, id, id, id, id, fun _ => ⟨.inl rfl, iff_of_false (· rfl) nofun⟩⟩

theorem tame_hiddenUnspecified (s : State) : Tame s s.hiddenUnspecified := ⟨rfl, rfl, id, id, id, id, id⟩

theorem tame_softReset (s : State) : Tame s (softReset s) := by
  have hreset (t : State) : Tame t t.registersReset.hiddenUnspecified :=
    tame_trans (tame_registersReset t) (tame_hiddenUnspecified _)
  unfold softReset
  split
  · exact tame_trans (tame_windowUnspecified s) (hreset _)
  · exact hreset s

theorem tame_externalReset (s : State) : Tame s (externalReset s) :=
  ⟨rfl, rfl, fun _ => rfl, fun _ => rfl, fun _ => rfl, fun _ => rfl,
    fun _ => ⟨.inl rfl, iff_of_false (· rfl) nofun⟩⟩

theorem tame_start (op : BitVec 3) (map : Bool) (s : State) : Tame s (start op map s) := by
  cases hb : s.busy with
  | true =>
    rw [start_busy op map s hb]
    exact tame_refl s
  | false =>
    rw [start_idle op map s hb]
    exact ⟨rfl, rfl, id, id, id, id, fun _ => ⟨.inr (.inl rfl), iff_of_false (· rfl) nofun⟩⟩

/-! ### The engine's lines -/

theorem checkLine_tame (s : State) : Keeps (Tame s) (checkLine s) := by
  have hgoes (t : State) (h : Tame s t) (e : ErrorName) :
      Keeps (Tame s) (if s.windowsFit then .next t else .next (raiseError e 0 s)) := by
    split
    · exact keeps_next h
    · exact keeps_next (tame_raiseError e 0 s)
  unfold checkLine
  cases s.command with
  | encode => exact hgoes { s with i := 0, phase := .eVal } ⟨rfl, rfl, id, id, id, id, id⟩ .dimensionOverflow
  | decode => exact hgoes { s with p := 0, out := 0, phase := .dHead } ⟨rfl, rfl, id, id, id, id, id⟩ .dimensionOverflow
  | lutEnc => exact keeps_next ⟨rfl, rfl, id, id, id, id, id⟩
  | lutDec => exact keeps_next ⟨rfl, rfl, id, id, id, id, id⟩
  | reserved => exact keeps_next (tame_raiseError _ 0 s)

theorem eValLine_tame (s : State) : Keeps (Tame s) (eValLine s) := by
  unfold eValLine
  split
  · exact keeps_next ⟨rfl, rfl, id, id, id, id, id⟩
  · refine keeps_memRead fun b => ?_
    split
    · exact keeps_next ⟨rfl, rfl, id, id, id, id, id⟩
    · exact keeps_next (tame_raiseError _ _ s)

theorem eLoadLine_tame (s : State) : Keeps (Tame s) (eLoadLine s) :=
  keeps_readTileCode fun _ => keeps_next ⟨rfl, rfl, id, id, id, id, id⟩

theorem eScanLine_tame (s : State) : Keeps (Tame s) (eScanLine s) := by
  unfold eScanLine
  split
  · refine keeps_readTileCode fun c => ?_
    split <;> exact keeps_next ⟨rfl, rfl, id, id, id, id, id⟩
  · exact keeps_next ⟨rfl, rfl, id, id, id, id, id⟩

theorem push_tame (n : Nibble) (s : State) : Keeps (Tame s) (push n s) := by
  intro t ht
  cases hhalf : s.half with
  | true =>
    obtain ⟨ha, rfl⟩ := (push_half n s t hhalf).mp ht
    exact tame_trans (tame_dstSet s _ _ ha) ⟨rfl, rfl, id, id, id, id, id⟩
  | false =>
    rw [push_empty n s hhalf] at ht
    cases ht
    exact ⟨rfl, rfl, id, id, id, id, id⟩

theorem eEmitLine_tame (s : State) : Keeps (Tame s) (eEmitLine s) := by
  have hnext (t : State) (h : Tame s t) (tiles : Nat) : Keeps (Tame s) (.next (nextRun tiles t)) :=
    keeps_next (tame_trans h ⟨rfl, rfl, id, id, id, id, id⟩)
  unfold eEmitLine
  split
  · exact keeps_andThen (push_tame _ s) fun t ht => hnext t ht 1
  · split
    · exact keeps_andThen (push_tame _ s) fun t ht =>
        keeps_andThen (push_tame _ t) fun u hu => hnext u (tame_trans ht hu) s.r
    · exact keeps_fault _

theorem memWrite_tame (a : Nat) (b : Byte) (s : State) : Keeps (Tame s) (memWrite a b s) := by
  intro t ht
  obtain ⟨ha, rfl⟩ := (memWrite_eq_next a b s t).mp ht
  exact tame_dstSet s a b ha

theorem eFlushLine_tame (s : State) : Keeps (Tame s) (eFlushLine s) := by
  have hflush : Keeps (Tame s) (flushHalf s) := by
    unfold flushHalf
    split
    · exact keeps_andThen (memWrite_tame _ _ s) fun t ht => keeps_next (tame_trans ht ⟨rfl, rfl, id, id, id, id, id⟩)
    · exact keeps_next (tame_refl s)
  exact keeps_andThen hflush fun t ht =>
    keeps_next (tame_complete (tame_trans ht ⟨rfl, rfl, id, id, id, id, id⟩))

theorem litHead_tame (tile : Tile) (s : State) : Keeps (Tame s) (litHead tile s) := by
  intro t ht
  obtain ⟨ha, rfl⟩ := (litHead_eq_next tile s t).mp ht
  exact tame_trans (tame_dstSet s _ _ ha) ⟨rfl, rfl, id, id, id, id, id⟩

theorem dHeadLine_tame (s : State) : Keeps (Tame s) (dHeadLine s) := by
  unfold dHeadLine
  split
  · exact keeps_next ⟨rfl, rfl, id, id, id, id, id⟩
  split
  · exact keeps_next (tame_raiseError _ _ s)
  refine keeps_readNibble fun h => ?_
  cases tileOfCode (terrainCode h) with
  | none => exact keeps_next (tame_raiseError _ _ s)
  | some t =>
    cases controlBit h with
    | true => exact keeps_next ⟨rfl, rfl, id, id, id, id, id⟩
    | false => exact litHead_tame t s

theorem runCount_tame (n : Nat) (s : State) : Tame s (runCount n s) := by
  unfold runCount
  split
  · exact tame_raiseError _ _ s
  · exact ⟨rfl, rfl, id, id, id, id, id⟩

theorem dCountLine_tame (s : State) : Keeps (Tame s) (dCountLine s) := by
  unfold dCountLine
  split
  · exact keeps_next (tame_raiseError _ _ s)
  · exact keeps_readNibble fun n => keeps_next (runCount_tame _ s)

theorem dRunLine_tame (s : State) : Keeps (Tame s) (dRunLine s) := by
  intro t ht
  obtain ⟨tile, -, ha, rfl⟩ := (dRunLine_eq_next s t).mp ht
  exact tame_trans (tame_dstSet s _ _ ha) ⟨rfl, rfl, id, id, id, id, id⟩

theorem dTailLine_tame (s : State) : Keeps (Tame s) (dTailLine s) := by
  unfold dTailLine
  split
  · exact keeps_next (tame_raiseError _ _ s)
  · exact keeps_next (tame_complete ⟨rfl, rfl, id, id, id, id, id⟩)

theorem finishLut_tame (result : Option Nibble) (s : State) : Keeps (Tame s) (finishLut result s) := by
  cases result with
  | some v => exact keeps_next (tame_complete ⟨rfl, rfl, id, id, id, id, id⟩)
  | none => exact keeps_next (tame_raiseError _ _ s)

theorem lutLine_tame (s : State) : Keeps (Tame s) (lutLine s) := by
  unfold lutLine
  split
  case h_1 | h_2 => exact finishLut_tame _ s
  all_goals exact keeps_next (tame_refl s)

theorem engineLine_tame (s : State) : Keeps (Tame s) (engineLine s) := by
  cases hb : s.busy with
  | false =>
    rw [engineLine_idle s hb]
    exact keeps_next (tame_refl s)
  | true =>
    rw [engineLine_busy s hb]
    unfold phaseLine
    cases s.phase with
    | idle => exact keeps_next (tame_refl s)
    | check => exact checkLine_tame s
    | eVal => exact eValLine_tame s
    | eLoad => exact eLoadLine_tame s
    | eScan => exact eScanLine_tame s
    | eEmit => exact eEmitLine_tame s
    | eFlush => exact eFlushLine_tame s
    | dHead => exact dHeadLine_tame s
    | dCount => exact dCountLine_tame s
    | dRun => exact dRunLine_tame s
    | dTail => exact dTailLine_tame s
    | lut => exact lutLine_tame s

/-! ### The instructions -/

theorem exec_litInstr (t : Tile) (s : State) : exec (litInstr t) s = litHead t s := by cases t <;> rfl

theorem exec_runInstr (t : Tile) (n : Nat) (s : State) : exec (runInstr t n) s = runToken t n s := by cases t <;> rfl

theorem exec_invalidHeads (s : State) : ∀ x ∈ invalidHeads, exec x.2 s = .next (invalidHead s) := by
  simp only [invalidHeads, List.forall_mem_cons]
  exact ⟨rfl, rfl, rfl, rfl, rfl, rfl, fun _ h => nomatch h⟩

theorem finishRun_tame (n : Nat) (s : State) : Keeps (Tame s) (finishRun n s) := by
  induction n generalizing s with
  | zero => exact keeps_next (tame_refl s)
  | succ n ih => exact keeps_andThen (dRunLine_tame s) fun t ht u hu => tame_trans ht (ih t u hu)

theorem runToken_tame (tile : Tile) (n : Nat) (s : State) : Keeps (Tame s) (runToken tile n s) := by
  have hhead : Tame s (runHead tile.code s) := ⟨rfl, rfl, id, id, id, id, id⟩
  have hcount := tame_trans hhead (runCount_tame n _)
  unfold runToken
  dsimp only
  split
  · exact keeps_next (tame_trans hhead (tame_raiseError _ _ _))
  · split
    · exact fun t ht => tame_trans hcount (finishRun_tame _ _ t ht)
    · exact keeps_next hcount

theorem exec_tame (i : Instr) (s : State) : Keeps (Tame s) (exec i s) := by
  cases henc : encode i with
  | word v =>
    rcases command_of_encode_eq_word i v henc with rfl | ⟨op, map, rfl⟩ | ⟨op, map, hmem⟩
    · exact keeps_next (tame_softReset s)
    · rw [exec_setcfg]
      split
      · exact keeps_next (tame_refl s)
      · exact keeps_next ⟨rfl, rfl, id, id, id, id, id⟩
    · rw [exec_startCommands map s _ hmem]
      exact keeps_next (tame_start op map s)
  | nibbles ns =>
    rcases token_of_encode_eq_nibbles i ns henc with ⟨t, rfl⟩ | ⟨t, n, rfl⟩ | ⟨head, hmem⟩
    · rw [exec_litInstr]
      exact litHead_tame t s
    · rw [exec_runInstr]
      exact runToken_tame t n s
    · rw [exec_invalidHeads s _ hmem]
      exact keeps_next (tame_raiseError _ _ s)

/-! ### The host's accesses -/

theorem writeReg_tame (idx : BitVec 5) (v : Word) (s : State) : Tame s (writeReg idx v s) := by
  unfold writeReg
  split
  · exact tame_refl s
  · split
    all_goals exact ⟨rfl, rfl, id, id, id, id, id⟩

theorem srcWrite_tame (a : Nat) (b : Byte) (s : State) : Tame s (srcWrite a b s) := by
  unfold srcWrite
  split
  · exact tame_refl s
  split
  · exact tame_srcSet s a b ‹_›
  · exact tame_refl s

theorem dstWrite_tame (a : Nat) (b : Byte) (s : State) : Tame s (dstWrite a b s) := by
  unfold dstWrite
  split
  · exact tame_refl s
  split
  · exact tame_dstSet s a b ‹_›
  · exact tame_refl s

theorem bufferRead_tame (inside : Bool) (held : Byte) (s : State) : Tame s (bufferRead inside held s) := by
  unfold bufferRead
  split <;> exact ⟨rfl, rfl, id, id, id, id, id⟩

theorem portAccess_tame (a : PortAccess) (s : State) : Keeps (Tame s) (portAccess a s) := by
  cases a with
  | regWrite idx v =>
    by_cases h : idx = 0
    · subst h
      exact exec_tame (decodeCommand v) s
    · exact keeps_of_eq (regWrite_other idx v s h) (keeps_next (writeReg_tame idx v s))
  | regRead idx => exact keeps_next ⟨rfl, rfl, id, id, id, id, id⟩
  | srcWrite a b => exact keeps_next (srcWrite_tame _ b s)
  | srcRead a => exact keeps_next (bufferRead_tame _ _ s)
  | dstWrite a b => exact keeps_next (dstWrite_tame _ b s)
  | dstRead a => exact keeps_next (bufferRead_tame _ _ s)
  | waitIdle => exact keeps_next ⟨rfl, rfl, id, id, id, id, id⟩
  | extReset => exact keeps_next (tame_externalReset s)

/-! ### Steps -/

theorem runTurn_tame (turn : Turn) (s : State) : Keeps (Tame s) (runTurn turn s) := by
  cases turn with
  | host =>
    cases hin : s.inputs with
    | nil => exact keeps_of_eq (hostTurn_none s hin) (keeps_next (tame_refl s))
    | cons a rest =>
      have htaken : Tame s { s with inputs := rest } := ⟨rfl, rfl, id, id, id, id, id⟩
      exact keeps_of_eq (hostTurn_some s a rest hin) fun t ht => tame_trans htaken (portAccess_tame a _ t ht)
  | engineLine => exact engineLine_tame s
  | engineToken =>
    cases hfetch : s.fetchToken with
    | none => exact keeps_of_eq (tokenTurn_none s hfetch) (engineLine_tame s)
    | some i => exact keeps_of_eq (tokenTurn_fetched s i hfetch) (exec_tame i s)

/-- The turn a step runs, and the state without it (R20). -/
theorem step_eq_runTurn (s : State) : ∃ turn ts, step s = runTurn turn { s with turns := ts } := by
  unfold step
  split
  · exact ⟨s.defaultTurn, s.turns, rfl⟩
  · exact ⟨_, _, rfl⟩

theorem step_tame (s t : State) (h : step s = .next t) : Tame s t := by
  obtain ⟨turn, ts, hstep⟩ := step_eq_runTurn s
  have htaken : Tame s { s with turns := ts } := ⟨rfl, rfl, id, id, id, id, id⟩
  exact tame_trans htaken (runTurn_tame turn _ t (hstep ▸ h))

/-- Settles O47: no move leaves the four combinations. -/
theorem statusKeepsItsFourCombinations : Obligations.StatusKeepsItsFourCombinations :=
  fun s t hs hstep => (step_tame s t hstep).status hs

/-- Settles O53: every move that writes a buffer does it by `Memory.set`. -/
theorem buffersStayCanonical : Obligations.BuffersStayCanonical :=
  fun s t hsrc hdst hstep => ⟨(step_tame s t hstep).srcWf hsrc, (step_tame s t hstep).dstWf hdst⟩

end Sys2Proof.Machine

/-! SUPPORT. Error completion (60_exceptions.md R183) and the payload tokens LIT, RUN and the invalid heads
(42_rle_decode.md R143, R144), each as an instruction and as the engine lines it stands for (R141). -/

namespace Sys2Proof.Machine

/-! ### Error completion -/

theorem isLut_iff (s : State) : s.isLut = true ↔ s.op = 2 ∨ s.op = 3 := ⟨op_of_isLut s, isLut_of_lut_op s⟩

theorem isDecoding_iff (s : State) : s.isDecoding = true ↔ s.op = 1 ∧ s.phase ≠ .check := by
  constructor
  · intro h
    cases hc : s.command with
    | decode =>
      simp only [State.isDecoding, hc, decide_eq_true_eq] at h
      exact ⟨op_of_decode s hc, h⟩
    | _ => simp [State.isDecoding, hc] at h
  · rintro ⟨hop, hp⟩
    simp [State.isDecoding, command_of_decode_op s hop, hp]

/-- The code in its place, DONE and ERR. -/
theorem raiseError_statusWord (e : ErrorName) (pos : Nat) (s : State) :
    (raiseError e pos s).statusWord = 0x6 ||| (e.code.setWidth 32 <<< 4) := by
  rw [raiseError_eq]
  simp [State.statusWord, State.recordError, flagAt]

theorem raiseError_errCode (e : ErrorName) (pos : Nat) (s : State) : (raiseError e pos s).errCode = e.code := by
  rw [raiseError_eq]
  rfl

theorem raiseError_dstByte_outside_cells (e : ErrorName) (pos : Nat) (s : State) (a : Nat)
    (ha : ¬ (s.db ≤ a ∧ a < s.db + s.cells)) : (raiseError e pos s).dstByte a = s.dstByte a := by
  cases h : s.isDecoding with
  | false =>
    rw [raiseError_notDecoding e pos s h]
    rfl
  | true =>
    have hlen : s.outputLen = s.cells := by
      rw [State.outputLen, command_of_decode_op s ((isDecoding_iff s).mp h).1]
    exact raiseError_dstByte_outside e pos s a (hlen ▸ ha)

/-- U3: the output window of a DECODE past CHECK, byte by byte. -/
theorem raiseError_dstByte_window (e : ErrorName) (pos : Nat) (s : State) (a : Nat) (hop : s.op = 1)
    (hp : s.phase ≠ .check) (hlo : s.db ≤ a) (hhi : a < s.db + s.cells) (hsize : a < s.dstSize) :
    (raiseError e pos s).dstByte a = Config.windowByte s.draws a := by
  have hlen : s.outputLen = s.cells := by rw [State.outputLen, command_of_decode_op s hop]
  rw [raiseError_decoding e pos s ((isDecoding_iff s).mpr ⟨hop, hp⟩)]
  simp only [State.dstByte, recordError_dst, windowUnspecified_dst, get?_fillWindow, hlen]
  rw [if_pos ⟨hlo, hhi, hsize⟩]
  rfl

/-- Settles O30: the registers by one equation, DST by whether a DECODE is past its CHECK. -/
theorem errorCompletionRecordsTheError : Obligations.ErrorCompletionRecordsTheError := by
  intro s e pos
  refine ⟨?status, ?registers, fun h => ?dst, raiseError_dstByte_outside_cells e pos s,
    fun hop hp a => raiseError_dstByte_window e pos s a hop hp⟩
  case status =>
    rw [raiseError_statusWord]
    cases e <;> rfl
  case registers =>
    have hlut : (if s.isLut then 0 else s.lutOut) = if s.op = 2 ∨ s.op = 3 then 0 else s.lutOut :=
      if_congr (isLut_iff s) rfl rfl
    refine (raiseError_eq e pos s).trans ?_
    rw [State.recordError, hlut, raiseError_errCode]
  case dst =>
    have hnot : s.isDecoding = false :=
      Bool.eq_false_iff.mpr fun hd => h.elim (· ((isDecoding_iff s).mp hd).1) ((isDecoding_iff s).mp hd).2
    rw [raiseError_notDecoding e pos s hnot]
    rfl

/-- What an error of a DECODE writes: LUT_OUT is none of it. -/
theorem raiseError_of_decode_op (e : ErrorName) (pos : Nat) (s : State) (hop : s.op = 1) :
    raiseError e pos s = { s with
      dst := (raiseError e pos s).dst, draws := (raiseError e pos s).draws
      phase := .idle, busy := false, done := true, err := true, errCode := e.code
      outCount := 0, nibCount := 0, errPos := BitVec.ofNat 17 pos } := by
  have hlut : s.isLut = false := by rw [State.isLut, command_of_decode_op s hop]
  refine (raiseError_eq e pos s).trans ?_
  rw [State.recordError, hlut]
  rfl

/-! ### LIT tokens -/

theorem mem_lit_rows : ∀ x ∈ ([(.litFloor, 0x00, 0x00), (.litWall, 0x02, 0x01), (.litGoal, 0x04, 0x02),
    (.litBox, 0x08, 0x03), (.litBoxGoal, 0x0C, 0x04)] : List (Instr × Byte × Byte)),
    ∃ t : Tile, x = (litInstr t, t.toByte false, t.toByte true) := by
  simp only [List.forall_mem_cons]
  exact ⟨⟨.floor, rfl⟩, ⟨.wall, rfl⟩, ⟨.goal, rfl⟩, ⟨.box, rfl⟩, ⟨.boxOnGoal, rfl⟩, fun _ h => nomatch h⟩

theorem toByte_eq_ite (t : Tile) (map : Bool) : t.toByte map = if map then t.toByte true else t.toByte false := by
  cases map <;> rfl

/-- Settles O24: a LIT is one tile written at DST[db + out]. -/
theorem litTokensWriteOneTile : Obligations.LitTokensWriteOneTile := by
  intro s x hx hinside
  obtain ⟨t, rfl⟩ := mem_lit_rows x hx
  refine ⟨_, (exec_litInstr t s).trans ((litHead_eq_next t s _).mpr ⟨hinside, rfl⟩), rfl, ?written, fun a ha => ?others⟩
  case written => exact (dstByte_set s _ _ _).trans ((if_pos rfl).trans (toByte_eq_ite t s.map))
  case others => exact (dstByte_set s _ _ _).trans (if_neg ha)

/-! ### RUN tokens -/

theorem mem_run_rows : ∀ x ∈ ([(.runFloor, 0x00, 0x00), (.runWall, 0x02, 0x01), (.runGoal, 0x04, 0x02),
    (.runBox, 0x08, 0x03), (.runBoxGoal, 0x0C, 0x04)] : List ((Nat → Instr) × Byte × Byte)),
    ∃ t : Tile, x = (runInstr t, t.toByte false, t.toByte true) := by
  simp only [List.forall_mem_cons]
  exact ⟨⟨.floor, rfl⟩, ⟨.wall, rfl⟩, ⟨.goal, rfl⟩, ⟨.box, rfl⟩, ⟨.boxOnGoal, rfl⟩, fun _ h => nomatch h⟩

theorem mem_runInstrs : ∀ mk ∈ ([.runFloor, .runWall, .runGoal, .runBox, .runBoxGoal] : List (Nat → Instr)),
    ∃ t : Tile, mk = runInstr t := by
  simp only [List.forall_mem_cons]
  exact ⟨⟨.floor, rfl⟩, ⟨.wall, rfl⟩, ⟨.goal, rfl⟩, ⟨.box, rfl⟩, ⟨.boxOnGoal, rfl⟩, fun _ h => nomatch h⟩

theorem tileOfCode_code (t : Tile) : tileOfCode t.code = some t := by cases t <;> rfl

/-- A RUN of tile `t` and count `n` at D_RUN, its count taken (R144). -/
def counting (t : Tile) (n : Nat) (s : State) : State :=
  { s with cur := t.code, reps := n + 3, p := s.p + 2, phase := .dRun }

theorem runCount_runHead_fits (t : Tile) (n : Nat) (s : State) (h : s.out + n + 3 ≤ s.cells) :
    runCount n (runHead t.code s) = counting t n s := if_neg (Nat.not_lt_of_le h)

theorem runCount_overrun (n : Nat) (s : State) (h : s.out + n + 3 > s.cells) :
    runCount n s = raiseError .payloadLengthMismatch s.p s := if_pos h

theorem countMissing_iff (s : State) : s.countMissing = true ↔ s.p + 1 = 2 * s.payloadLen := decide_eq_true_iff

section
variable (t : Tile) (n : Nat) (s : State)

theorem runToken_missing (h : s.p + 1 = 2 * s.payloadLen) :
    runToken t n s = .next (raiseError .payloadLengthMismatch (s.p + 1) (runHead t.code s)) :=
  if_pos ((countMissing_iff (runHead t.code s)).mpr h)

section
variable (h : s.p + 1 ≠ 2 * s.payloadLen)
include h

theorem runToken_counted :
    runToken t n s =
      if (runCount n (runHead t.code s)).phase = .dRun then finishRun (n + 3) (runCount n (runHead t.code s))
      else .next (runCount n (runHead t.code s)) :=
  if_neg fun hmissing => h ((countMissing_iff (runHead t.code s)).mp hmissing)

theorem runToken_overrun (hout : s.out + n + 3 > s.cells) :
    runToken t n s = .next (raiseError .payloadLengthMismatch s.p (runHead t.code s)) := by
  have hphase : (raiseError .payloadLengthMismatch s.p (runHead t.code s)).phase ≠ .dRun := by
    rw [raiseError_eq]
    exact nofun
  rw [runToken_counted t n s h, runCount_overrun n (runHead t.code s) hout]
  exact if_neg hphase

theorem runToken_eq_finishRun (hout : s.out + n + 3 ≤ s.cells) :
    runToken t n s = finishRun (n + 3) (counting t n s) := by
  rw [runToken_counted t n s h, runCount_runHead_fits t n s hout]
  exact if_pos rfl

/-- The state after a RUN that fits. -/
theorem runToken_fits (hout : s.out + n + 3 ≤ s.cells) (hdst : s.db + s.out + n + 3 ≤ s.dstSize) :
    runToken t n s = .next { s with
      dst := storeBytes s.dst (s.db + s.out) (List.replicate (n + 3) (t.toByte s.map))
      out := s.out + n + 3, p := s.p + 2, cur := t.code, reps := 0, phase := .dHead } := by
  rw [runToken_eq_finishRun t n s h hout]
  exact finishRun_next t (n + 3) (counting t n s) (tileOfCode_code t) rfl rfl (Nat.succ_ne_zero _) hdst

end

end

/-- The bytes of DST after the same byte has been stored `n` times from `base`. -/
theorem dstByte_storeBytes_replicate (s : State) (base n a : Nat) (b : Byte) :
    ({ s with dst := storeBytes s.dst base (List.replicate n b) } : State).dstByte a =
      if base ≤ a ∧ a < base + n then b else s.dstByte a := by
  simp only [State.dstByte, get?_storeBytes, List.length_replicate]
  by_cases h : base ≤ a ∧ a < base + n
  · rw [if_pos h, if_pos h, List.getElem?_replicate_of_lt (by omega), Option.getD_some]
  · rw [if_neg h, if_neg h]

/-- Settles O25: D_HEAD and D_COUNT go through, and the tiles stand one after another. -/
theorem runTokensWriteTheirRun : Obligations.RunTokensWriteTheirRun := by
  intro s n x hx _ hp hout hdst
  obtain ⟨t, rfl⟩ := mem_run_rows x hx
  have hcode : t.code.setWidth 8 = t.toByte false := by cases t <;> rfl
  refine ⟨_, (exec_runInstr t n s).trans (runToken_fits t n s (by omega) hout hdst), rfl, hcode, fun a hlo hhi => ?written,
    fun a ha => ?others⟩
  case written =>
    exact (dstByte_storeBytes_replicate s _ (n + 3) a _).trans ((if_pos ⟨hlo, hhi⟩).trans (toByte_eq_ite t s.map))
  case others => exact (dstByte_storeBytes_replicate s _ (n + 3) a _).trans (if_neg ha)

theorem runToken_unfit (t : Tile) (n : Nat) (s : State) (h : s.p + 1 = 2 * s.payloadLen ∨ s.out + n + 3 > s.cells) :
    runToken t n s = .next (raiseError .payloadLengthMismatch (if s.p + 1 = 2 * s.payloadLen then s.p + 1 else s.p)
      (runHead t.code s)) := by
  by_cases hmissing : s.p + 1 = 2 * s.payloadLen
  · rw [if_pos hmissing, runToken_missing t n s hmissing]
  · rw [if_neg hmissing, runToken_overrun t n s hmissing (h.resolve_left hmissing)]

/-- Settles O26: both failures are an error completion of a DECODE past its CHECK. -/
theorem runTokensThatDoNotFitFail : Obligations.RunTokensThatDoNotFitFail := by
  intro s n mk hmk _ hop _ hunfit
  obtain ⟨t, rfl⟩ := mem_runInstrs mk hmk
  refine ⟨_, (exec_runInstr t n s).trans (runToken_unfit t n s hunfit), ?status, ?registers,
    raiseError_dstByte_outside_cells _ _ (runHead t.code s)⟩
  case status => exact raiseError_statusWord _ _ _
  case registers =>
    rw [raiseError_of_decode_op _ _ (runHead t.code s) hop]
    rfl

/-! ### Invalid heads -/

theorem mem_invalidHeads : ∀ i ∈ ([.inv6, .inv7, .invA, .invB, .invE, .invF] : List Instr),
    ∃ h, (h, i) ∈ invalidHeads := by decide

/-- Settles O27: an invalid head is an error completion at the token pointer. -/
theorem invalidHeadsEndTheDecode : Obligations.InvalidHeadsEndTheDecode := by
  intro s i hi hop _
  obtain ⟨h, hmem⟩ := mem_invalidHeads i hi
  exact ⟨_, exec_invalidHeads s _ hmem, raiseError_statusWord _ _ _, raiseError_of_decode_op _ _ s hop,
    raiseError_dstByte_outside_cells _ _ s⟩

/-! ### D_TAIL -/

/-- Settles O29: the two branches of D_TAIL. -/
theorem tailStepChecksUnreadBytes : Obligations.TailStepChecksUnreadBytes := by
  intro s hb hop hp
  have hline : engineLine s = dTailLine s := by
    rw [engineLine_busy s hb]
    simp only [phaseLine, hp]
  rw [hline, dTailLine, halfUp]
  refine ⟨fun hunread => ⟨raiseError .payloadLengthMismatch s.p s, if_pos hunread, raiseError_statusWord _ _ _, ?_⟩,
    fun hread => if_neg (Nat.not_lt_of_le hread)⟩
  have hdst := raiseError_dstByte_outside_cells .payloadLengthMismatch s.p s
  rw [raiseError_of_decode_op _ _ s hop] at hdst ⊢
  exact ⟨rfl, rfl, rfl, rfl, rfl, hdst⟩

/-! ### The lines of a token (R141) -/

theorem tileOfCode_terrain_code (t : Tile) : tileOfCode (terrainCode t.code) = some t := by cases t <;> rfl

theorem tileOfCode_terrain_runHead (t : Tile) : tileOfCode (terrainCode (t.code ||| 1)) = some t := by cases t <;> rfl

theorem tileOfCode_terrain_invalid : ∀ x ∈ invalidHeads, tileOfCode (terrainCode x.1) = none := by decide

/-- D_HEAD on the head nibble `h`, whatever `h` is (R141). -/
def headLine (h : Nibble) (s : State) : Result :=
  match tileOfCode (terrainCode h) with
  | none => .next (invalidHead s)
  | some t => if controlBit h then .next (runHead (terrainCode h) s) else litHead t s

theorem headLine_lit (t : Tile) (s : State) : headLine t.code s = litHead t s := by
  rw [headLine, tileOfCode_terrain_code]
  exact if_neg (Bool.eq_false_iff.mp (controlBit_of_validCode _ (validCode_code t)))

theorem headLine_run (t : Tile) (s : State) : headLine (t.code ||| 1) s = .next (runHead t.code s) := by
  rw [headLine, tileOfCode_terrain_runHead, terrainCode_runHead _ (validCode_code t)]
  exact if_pos (controlBit_runHead _)

theorem headLine_invalid (s : State) : ∀ x ∈ invalidHeads, headLine x.1 s = .next (invalidHead s) := by
  intro x hx
  rw [headLine, tileOfCode_terrain_invalid x hx]

/-- D_HEAD when there are tiles to write and nibbles to read. -/
theorem dHeadLine_of_nib (s : State) (hdec : Decoding s) (hout : s.out < s.cells) (hp : s.p < 2 * s.payloadLen) :
    dHeadLine s = headLine (s.nib s.p) s := by
  rw [dHeadLine, if_neg (Nat.ne_of_lt hout), if_neg (Nat.ne_of_lt hp), readNibble_of_decoding s hdec s.p hp]
  rfl

theorem dCountLine_of_nib (s : State) (hdec : Decoding s) (hp : s.p + 1 < 2 * s.payloadLen) :
    dCountLine s = .next (runCount (s.nib (s.p + 1)).toNat s) := by
  have hpresent : ¬ s.countMissing = true := fun hmissing => Nat.ne_of_lt hp ((countMissing_iff s).mp hmissing)
  rw [dCountLine, if_neg hpresent, readNibble_of_decoding s hdec (s.p + 1) hp]

/-! ### Lines one after another -/

theorem engineLines_succ_of_line {s t : State} (k : Nat) (h : engineLine s = .next t) :
    engineLines (k + 1) s = engineLines k t := by
  rw [engineLines, h, andThen_next]

theorem andThen_congr {x : Result} {f g : State → Result} (h : ∀ s, x = .next s → f s = g s) : andThen x f = andThen x g := by
  cases x with
  | next s => exact h s rfl
  | fault e => rfl
  | refused r => rfl

section
variable (s : State) (hb : s.busy = true)
include hb

theorem engineLine_of_dHead (hp : s.phase = .dHead) : engineLine s = dHeadLine s := by
  rw [engineLine_busy s hb]
  simp only [phaseLine, hp]

theorem engineLine_of_dCount (hp : s.phase = .dCount) : engineLine s = dCountLine s := by
  rw [engineLine_busy s hb]
  simp only [phaseLine, hp]

theorem engineLine_of_dRun (hp : s.phase = .dRun) : engineLine s = dRunLine s := by
  rw [engineLine_busy s hb]
  simp only [phaseLine, hp]

end

/-- As many lines as there are tiles left in the run. -/
theorem finishRun_eq_engineLines (n : Nat) (s : State) (hb : s.busy = true) (hp : s.phase = .dRun) (hr : s.reps = n) :
    finishRun n s = engineLines n s := by
  induction n generalizing s with
  | zero => rfl
  | succ n ih =>
    rw [finishRun, engineLines, engineLine_of_dRun s hb hp]
    refine andThen_congr fun t ht => ?_
    obtain ⟨tile, -, -, rfl⟩ := (dRunLine_eq_next s t).mp ht
    cases n with
    | zero => rfl
    | succ n =>
      have hreps : s.reps - 1 = n + 1 := by omega
      exact ih _ hb (if_neg (by omega)) hreps

/-! ### The token at the token pointer -/

theorem fetchToken_eq_some (s : State) (i : Instr) (h : s.fetchToken = some i) :
    s.busy = true ∧ s.phase = .dHead ∧ s.out < s.cells ∧ ∃ rest, decodeToken s.tokenNibbles = .ok (i, rest) := by
  unfold State.fetchToken at h
  split at h
  · rename_i hcond
    obtain ⟨hb, hp, hout, -⟩ := hcond
    split at h
    · rename_i j rest hdecode
      cases h
      exact ⟨hb, hp, hout, rest, hdecode⟩
    · nomatch h
  · nomatch h

/-- The nibbles of a token: the head, and the next nibble where there is one. -/
theorem tokenNibbles_of_decoded (s : State) (i : Instr) (rest : List Nibble)
    (h : decodeToken s.tokenNibbles = .ok (i, rest)) :
    s.p < 2 * s.payloadLen ∧
      s.tokenNibbles = s.nib s.p :: if s.p + 1 < 2 * s.payloadLen then [s.nib (s.p + 1)] else [] := by
  unfold State.tokenNibbles at h ⊢
  by_cases htwo : s.p + 1 < 2 * s.payloadLen
  · rw [if_pos htwo, if_pos htwo]
    exact ⟨Nat.lt_of_succ_lt htwo, rfl⟩
  · by_cases hone : s.p < 2 * s.payloadLen
    · rw [if_neg htwo, if_neg htwo, if_pos hone]
      exact ⟨hone, rfl⟩
    · rw [if_neg htwo, if_neg hone] at h
      nomatch h

/-- A RUN that a running DECODE has fetched: D_HEAD, D_COUNT and a line for each tile, unless D_COUNT fails. -/
theorem runToken_eq_engineLines (s : State) (hb : s.busy = true) (hphase : s.phase = .dHead) (hdec : Decoding s)
    (hout : s.out < s.cells) (hp : s.p + 1 < 2 * s.payloadLen) (t : Tile) (hhead : s.nib s.p = t.code ||| 1) :
    ∃ u k, runToken t (s.nib (s.p + 1)).toNat s = .next u ∧ 1 ≤ k ∧ k ≤ 20 ∧ engineLines k s = .next u := by
  obtain ⟨-, hdst⟩ : s.sb + s.payloadLen ≤ s.srcSize ∧ s.db + s.cells ≤ s.dstSize :=
    windows_of_decode s hdec.1 hdec.2.1
  have hline1 : engineLine s = .next (runHead t.code s) :=
    (engineLine_of_dHead s hb hphase).trans
      ((dHeadLine_of_nib s hdec hout (Nat.lt_of_succ_lt hp)).trans (hhead ▸ headLine_run t s))
  have hline2 : engineLine (runHead t.code s) = .next (runCount (s.nib (s.p + 1)).toNat (runHead t.code s)) :=
    (engineLine_of_dCount (runHead t.code s) hb rfl).trans (dCountLine_of_nib (runHead t.code s) hdec hp)
  have hlines (k : Nat) : engineLines (k + 2) s = engineLines k (runCount (s.nib (s.p + 1)).toNat (runHead t.code s)) :=
    (engineLines_succ_of_line (k + 1) hline1).trans (engineLines_succ_of_line k hline2)
  have hn : (s.nib (s.p + 1)).toNat < 16 := (s.nib (s.p + 1)).isLt
  generalize (s.nib (s.p + 1)).toNat = n at hn hlines
  by_cases hfits : s.out + n + 3 ≤ s.cells
  · have hrun := runToken_fits t n s (Nat.ne_of_lt hp) hfits (by omega)
    have hfinish := runToken_eq_finishRun t n s (Nat.ne_of_lt hp) hfits
    have hrest := finishRun_eq_engineLines (n + 3) (counting t n s) hb rfl rfl
    refine ⟨_, n + 3 + 2, hrun, by omega, by omega, ?_⟩
    rw [hlines, runCount_runHead_fits t n s hfits, ← hrest, ← hfinish, hrun]
  · have hover : s.out + n + 3 > s.cells := Nat.lt_of_not_le hfits
    refine ⟨_, 0 + 2, runToken_overrun t n s (Nat.ne_of_lt hp) hover, by omega, by omega, ?_⟩
    rw [hlines, runCount_overrun n (runHead t.code s) hover]
    rfl

/-- The token a running DECODE has fetched is between 1 and 20 engine lines. -/
theorem exec_fetched_eq_engineLines (s : State) (i : Instr) (hrun : Running s) (hfetch : s.fetchToken = some i) :
    ∃ u k, exec i s = .next u ∧ 1 ≤ k ∧ k ≤ 20 ∧ engineLines k s = .next u := by
  obtain ⟨hb, hphase, hout, rest, hdecode⟩ := fetchToken_eq_some s i hfetch
  obtain ⟨hp, hnibs⟩ := tokenNibbles_of_decoded s i rest hdecode
  have hdec : Decoding s := by simpa only [PhaseLegal, hphase] using hrun.legal
  have hone {u : State} (hline : dHeadLine s = .next u) : engineLines 1 s = .next u :=
    engineLines_succ_of_line 0 ((engineLine_of_dHead s hb hphase).trans hline)
  have hline := dHeadLine_of_nib s hdec hout hp
  rw [hnibs] at hdecode
  cases headKind (s.nib s.p) with
  | lit t hhead =>
    rw [hhead, decodeToken_lit] at hdecode
    cases hdecode
    have hlit := (litHead_eq_next t s _).mpr ⟨outAddr_lt_of_decoding s hdec hout, rfl⟩
    exact ⟨_, 1, (exec_litInstr t s).trans hlit, Nat.le_refl 1, by decide,
      hone (by rw [hline, hhead, headLine_lit, hlit])⟩
  | run t hhead =>
    rw [hhead, decodeToken_run] at hdecode
    by_cases htwo : s.p + 1 < 2 * s.payloadLen
    · rw [if_pos htwo] at hdecode
      cases hdecode
      rw [exec_runInstr]
      exact runToken_eq_engineLines s hb hphase hdec hout htwo t hhead
    · rw [if_neg htwo] at hdecode
      nomatch hdecode
  | invalid j hmem =>
    rw [decodeToken_invalid _ _ hmem] at hdecode
    cases hdecode
    exact ⟨_, 1, exec_invalidHeads s _ hmem, Nat.le_refl 1, by decide,
      hone (hline.trans (headLine_invalid s _ hmem))⟩

/-- Settles O28: by the kind of the head nibble. -/
theorem tokenStepIsItsEngineLines : Obligations.TokenStepIsItsEngineLines := by
  intro s i hinv hfetch
  have hb : s.busy = true := (fetchToken_eq_some s i hfetch).1
  exact exec_fetched_eq_engineLines s i (running_of_inv s hinv hb) hfetch

end Sys2Proof.Machine

/-! SUPPORT. What an engine line of a running command can do (10_state.md R40, 20_memory.md R53, R57), and from it the
invariant: every step from a legal state has an answer, and the answer is legal. -/

namespace Sys2Proof.Machine

/-! ### One line of a running command -/

/-- `s` with the hidden registers, the phase and DST of `t`. -/
def State.worked (s t : State) : State :=
  { s with
    phase := t.phase, i := t.i, r := t.r, cur := t.cur, k := t.k, hold := t.hold, half := t.half, wb := t.wb
    p := t.p, out := t.out, reps := t.reps, dst := t.dst }

/-- A line that goes on: only hidden registers change, no counter overflows, and DST only in the output window. -/
structure Works (s t : State) : Prop where
  same : t = s.worked t
  hidden : HiddenFit s → HiddenFit t
  dst : ∀ a, ¬ (s.db ≤ a ∧ a < s.db + s.outputLen) → t.dst.get? a = s.dst.get? a

theorem works_refl (s : State) : Works s s := ⟨rfl, id, fun _ _ => rfl⟩

theorem works_trans {s t u : State} (h : Works s t) (h' : Works t u) : Works s u where
  same := h'.same.trans (by rw [h.same]; rfl)
  hidden := h'.hidden ∘ h.hidden
  dst a ha := by
    have hdb : t.db = s.db := by rw [h.same]; rfl
    have hlen : t.outputLen = s.outputLen := by rw [h.same]; rfl
    exact (h'.dst a (by rwa [hdb, hlen])).trans (h.dst a ha)

/-- What a line of a running command does: it goes on, fails, or completes. -/
inductive LineMove (s t : State) : Prop where
  | works (h : Works s t)
  | fails (e : ErrorName) (pos : Nat) (h : t = raiseError e pos s)
  | completes (u : State) (outCount : BitVec 16) (nibCount : BitVec 17) (lutOut : BitVec 4) (hu : Works s u)
      (h : t = complete { u with outCount := outCount, nibCount := nibCount, lutOut := lutOut })

theorem lineMove_raiseError (e : ErrorName) (pos : Nat) (s : State) : Keeps (LineMove s) (.next (raiseError e pos s)) :=
  keeps_next (.fails e pos rfl)

theorem cells_lt (s : State) : s.cells < 2 ^ 16 := s.cellCount.isLt

theorem payloadLen_lt (s : State) : s.payloadLen < 2 ^ 16 := s.srcLen.isLt

theorem outputLen_of_encode (s : State) (hc : s.command = .encode) : s.outputLen = (s.cells + 1) / 2 := by
  rw [State.outputLen, hc, halfUp]

theorem outputLen_of_decode (s : State) (hc : s.command = .decode) : s.outputLen = s.cells := by
  rw [State.outputLen, hc]

theorem checkLine_moves (s : State) : Keeps (LineMove s) (checkLine s) := by
  have hgoes (t : State) (h : Works s t) :
      Keeps (LineMove s) (if s.windowsFit then .next t else .next (raiseError .dimensionOverflow 0 s)) := by
    split
    · exact keeps_next (.works h)
    · exact lineMove_raiseError _ 0 s
  have hlut : Works s { s with phase := .lut } := ⟨rfl, id, fun _ _ => rfl⟩
  unfold checkLine
  cases s.command with
  | encode =>
    exact hgoes { s with i := 0, phase := .eVal }
      ⟨rfl, fun ⟨_, hr, hk, hwb, hp, hout, hreps⟩ => ⟨Nat.two_pow_pos 17, hr, hk, hwb, hp, hout, hreps⟩, fun _ _ => rfl⟩
  | decode =>
    exact hgoes { s with p := 0, out := 0, phase := .dHead }
      ⟨rfl, fun ⟨hi, hr, hk, hwb, _, _, hreps⟩ => ⟨hi, hr, hk, hwb, Nat.two_pow_pos 17, Nat.two_pow_pos 17, hreps⟩,
        fun _ _ => rfl⟩
  | lutEnc => exact keeps_next (.works hlut)
  | lutDec => exact keeps_next (.works hlut)
  | reserved => exact lineMove_raiseError _ 0 s

theorem lutLine_moves (s : State) : Keeps (LineMove s) (lutLine s) := by
  have hfinish (result : Option Nibble) : Keeps (LineMove s) (finishLut result s) := by
    cases result with
    | some v => exact keeps_next (.completes s s.outCount s.nibCount v (works_refl s) rfl)
    | none => exact lineMove_raiseError _ 0 s
  unfold lutLine
  split
  case h_1 | h_2 => exact hfinish _
  all_goals exact keeps_next (.works (works_refl s))

/-! ### The lines of ENCODE -/

theorem eValLine_moves (s : State) (hi : s.i ≤ s.cells) : Keeps (LineMove s) (eValLine s) := by
  have hcells := cells_lt s
  unfold eValLine
  by_cases hend : s.i = s.cells
  · rw [if_pos hend]
    exact keeps_next (.works ⟨rfl,
      fun ⟨_, hr, _, _, hp, hout, hreps⟩ =>
        ⟨Nat.two_pow_pos 17, hr, Nat.two_pow_pos 17, Nat.two_pow_pos 16, hp, hout, hreps⟩,
      fun _ _ => rfl⟩)
  · rw [if_neg hend]
    refine keeps_memRead fun b => ?_
    split
    · have hnext : s.i + 1 < 2 ^ 17 := by omega
      exact keeps_next (.works ⟨rfl,
        fun ⟨_, hr, hk, hwb, hp, hout, hreps⟩ => ⟨hnext, hr, hk, hwb, hp, hout, hreps⟩, fun _ _ => rfl⟩)
    · exact lineMove_raiseError _ _ s

theorem eLoadLine_moves (s : State) : Keeps (LineMove s) (eLoadLine s) :=
  keeps_readTileCode fun _ => keeps_next (.works ⟨rfl,
    fun ⟨hi, _, hk, hwb, hp, hout, hreps⟩ => ⟨hi, (by decide : 1 < 2 ^ 5), hk, hwb, hp, hout, hreps⟩, fun _ _ => rfl⟩)

theorem eScanLine_moves (s : State) : Keeps (LineMove s) (eScanLine s) := by
  have hemit : Keeps (LineMove s) (.next { s with phase := .eEmit }) :=
    keeps_next (.works ⟨rfl, id, fun _ _ => rfl⟩)
  unfold eScanLine
  split
  · rename_i hmore
    have hr : s.r + 1 < 2 ^ 5 := by omega
    refine keeps_readTileCode fun c => ?_
    split
    · exact keeps_next (.works ⟨rfl,
        fun ⟨hi, _, hk, hwb, hp, hout, hreps⟩ => ⟨hi, hr, hk, hwb, hp, hout, hreps⟩, fun _ _ => rfl⟩)
    · exact hemit
  · exact hemit

/-- `push` inside the output window, with the nibbles and bytes counted (R128). -/
structure Pushed (s t : State) : Prop where
  works : Works s t
  count : 2 * t.wb + t.half.toNat = t.k
  k : t.k = s.k + 1

theorem push_pushed (n : Nibble) (s : State) (hc : s.command = .encode) (hcount : 2 * s.wb + s.half.toNat = s.k)
    (hk : s.k < s.cells) : Keeps (Pushed s) (push n s) := by
  have hcells := cells_lt s
  have hlen := outputLen_of_encode s hc
  have hk' : s.k + 1 < 2 ^ 17 := by omega
  intro t ht
  cases hhalf : s.half with
  | false =>
    rw [push_empty n s hhalf] at ht
    cases ht
    rw [hhalf] at hcount
    exact ⟨⟨rfl, fun ⟨hi, hr, _, hwb, hp, hout, hreps⟩ => ⟨hi, hr, hk', hwb, hp, hout, hreps⟩, fun _ _ => rfl⟩,
      congrArg (· + 1) hcount, rfl⟩
  | true =>
    obtain ⟨-, rfl⟩ := (push_half n s t hhalf).mp ht
    rw [hhalf, Bool.toNat_true] at hcount
    have hwb' : s.wb + 1 < 2 ^ 16 := by omega
    refine ⟨⟨rfl, fun ⟨hi, hr, _, _, hp, hout, hreps⟩ => ⟨hi, hr, hk', hwb', hp, hout, hreps⟩, fun a ha => ?_⟩, ?_, rfl⟩
    · exact get?_set_other _ _ (by omega)
    · show 2 * (s.wb + 1) + 0 = s.k + 1
      omega

theorem nextRun_works {s t : State} (h : Works s t) (tiles : Nat) (hi : s.i + tiles ≤ s.cells) (hti : t.i = s.i) :
    Works s (nextRun tiles t) := by
  have hcells := cells_lt s
  have hsum : t.i + tiles < 2 ^ 17 := by omega
  exact works_trans h
    ⟨rfl, fun ⟨_, hr, hk, hwb, hp, hout, hreps⟩ => ⟨hsum, hr, hk, hwb, hp, hout, hreps⟩, fun _ _ => rfl⟩

theorem push_i {n : Nibble} {s t : State} (h : push n s = .next t) : t.i = s.i := by
  cases hhalf : s.half with
  | false =>
    rw [push_empty n s hhalf] at h
    cases h
    rfl
  | true =>
    obtain ⟨-, rfl⟩ := (push_half n s t hhalf).mp h
    rfl

theorem eEmitLine_moves (s : State) (henc : Encoding s) (hrun : RunScanned s) : Keeps (LineMove s) (eEmitLine s) := by
  obtain ⟨hc, -, -, hcount, hk⟩ := henc
  obtain ⟨hpos, -, hi, -⟩ := hrun
  intro t ht
  unfold eEmitLine at ht
  by_cases hlit : s.r < 3
  · rw [if_pos hlit] at ht
    obtain ⟨u, hu, hnext⟩ := (andThen_eq_next _ _ t).mp ht
    cases hnext
    have hpush := push_pushed _ s hc hcount (by omega) u hu
    exact .works (nextRun_works hpush.works 1 (by omega) (push_i hu))
  · rw [if_neg hlit] at ht
    by_cases h18 : s.r ≤ 18
    · rw [if_pos h18] at ht
      obtain ⟨u, hu, ht⟩ := (andThen_eq_next _ _ t).mp ht
      obtain ⟨v, hv, hnext⟩ := (andThen_eq_next _ _ t).mp ht
      cases hnext
      have hpush := push_pushed _ s hc hcount (by omega) u hu
      have huc : u.command = .encode := by rw [hpush.works.same]; exact hc
      have hcells : u.cells = s.cells := by rw [hpush.works.same]; rfl
      have hroom : u.k < u.cells := by rw [hpush.k, hcells]; omega
      have hpush' := push_pushed _ u huc hpush.count hroom v hv
      exact .works (nextRun_works (works_trans hpush.works hpush'.works) s.r hi ((push_i hv).trans (push_i hu)))
    · rw [if_neg h18] at ht
      cases ht

theorem flushHalf_works (s : State) (henc : Encoding s) (hi : s.i = s.cells) : Keeps (Works s) (flushHalf s) := by
  obtain ⟨hc, -, -, hcount, hk⟩ := henc
  have hcells := cells_lt s
  have hlen := outputLen_of_encode s hc
  intro t ht
  unfold flushHalf at ht
  cases hhalf : s.half with
  | false =>
    rw [if_neg (Bool.eq_false_iff.mp hhalf)] at ht
    cases ht
    exact works_refl s
  | true =>
    rw [hhalf, Bool.toNat_true] at hcount
    rw [if_pos hhalf] at ht
    obtain ⟨u, hu, hnext⟩ := (andThen_eq_next _ _ t).mp ht
    obtain ⟨-, rfl⟩ := (memWrite_eq_next _ _ s u).mp hu
    cases hnext
    have hwb' : s.wb + 1 < 2 ^ 16 := by omega
    refine ⟨rfl, fun ⟨hi, hr, hk, _, hp, hout, hreps⟩ => ⟨hi, hr, hk, hwb', hp, hout, hreps⟩, fun a ha => ?_⟩
    exact get?_set_other _ _ (by omega)

theorem eFlushLine_moves (s : State) (henc : Encoding s) (hi : s.i = s.cells) : Keeps (LineMove s) (eFlushLine s) :=
  keeps_andThen (flushHalf_works s henc hi) fun u hu =>
    keeps_next (.completes u (BitVec.ofNat 16 u.wb) (BitVec.ofNat 17 u.k) u.lutOut hu rfl)

/-! ### The lines of DECODE -/

theorem dHeadLine_moves (s : State) (hdec : Decoding s) : Keeps (LineMove s) (dHeadLine s) := by
  obtain ⟨hc, -, hout, hp⟩ := hdec
  have hcells := cells_lt s
  have hL := payloadLen_lt s
  have hlen := outputLen_of_decode s hc
  unfold dHeadLine
  by_cases hend : s.out = s.cells
  · rw [if_pos hend]
    exact keeps_next (.works ⟨rfl, id, fun _ _ => rfl⟩)
  rw [if_neg hend]
  by_cases hover : s.p = 2 * s.payloadLen
  · rw [if_pos hover]
    exact lineMove_raiseError _ _ s
  rw [if_neg hover]
  refine keeps_readNibble fun h => ?_
  cases tileOfCode (terrainCode h) with
  | none => exact lineMove_raiseError _ _ s
  | some tile =>
    cases controlBit h with
    | true => exact keeps_next (.works ⟨rfl, id, fun _ _ => rfl⟩)
    | false =>
      intro t ht
      obtain ⟨-, rfl⟩ := (litHead_eq_next tile s t).mp ht
      have hout' : s.out + 1 < 2 ^ 17 := by omega
      have hp' : s.p + 1 < 2 ^ 17 := by omega
      refine .works ⟨rfl, fun ⟨hi, hr, hk, hwb, _, _, hreps⟩ => ⟨hi, hr, hk, hwb, hp', hout', hreps⟩, fun a ha => ?_⟩
      exact get?_set_other _ _ (by omega)

theorem dCountLine_moves (s : State) (hp : s.p < 2 * s.payloadLen) : Keeps (LineMove s) (dCountLine s) := by
  have hL := payloadLen_lt s
  unfold dCountLine
  split
  · exact lineMove_raiseError _ _ s
  · refine keeps_readNibble fun n => ?_
    unfold runCount
    split
    · exact lineMove_raiseError _ _ s
    · have hn : n.toNat < 16 := n.isLt
      have hreps : n.toNat + 3 < 2 ^ 5 := by omega
      have hp' : s.p + 2 < 2 ^ 17 := by omega
      exact keeps_next (.works ⟨rfl,
        fun ⟨hi, hr, hk, hwb, _, hout, _⟩ => ⟨hi, hr, hk, hwb, hp', hout, hreps⟩, fun _ _ => rfl⟩)

theorem dRunLine_moves (s : State) (hc : s.command = .decode) (hout : s.out < s.cells) :
    Keeps (LineMove s) (dRunLine s) := by
  have hcells := cells_lt s
  have hlen := outputLen_of_decode s hc
  intro t ht
  obtain ⟨tile, -, -, rfl⟩ := (dRunLine_eq_next s t).mp ht
  have hout' : s.out + 1 < 2 ^ 17 := by omega
  refine .works ⟨rfl, fun ⟨hi, hr, hk, hwb, hp, _, hreps⟩ => ⟨hi, hr, hk, hwb, hp, hout', ?_⟩, fun a ha => ?_⟩
  · exact Nat.lt_of_le_of_lt (Nat.sub_le _ _) hreps
  · exact get?_set_other _ _ (by omega)

theorem dTailLine_moves (s : State) : Keeps (LineMove s) (dTailLine s) := by
  unfold dTailLine
  split
  · exact lineMove_raiseError _ _ s
  · exact keeps_next (.completes s _ _ s.lutOut (works_refl s) rfl)

theorem engineLine_moves (s : State) (h : Running s) : Keeps (LineMove s) (engineLine s) := by
  have hlegal := h.legal
  refine keeps_of_eq (engineLine_busy s h.busy) ?_
  unfold phaseLine
  cases hp : s.phase with
  | idle => exact absurd hp h.active
  | check => exact checkLine_moves s
  | eVal =>
    obtain ⟨-, -, hi, -⟩ : s.command = .encode ∧ s.windowsFit = true ∧ s.i ≤ s.cells ∧ InputValid s s.i := by
      simpa only [PhaseLegal, hp] using hlegal
    exact eValLine_moves s hi
  | eLoad => exact eLoadLine_moves s
  | eScan => exact eScanLine_moves s
  | eEmit =>
    obtain ⟨henc, hrun⟩ : Encoding s ∧ RunScanned s := by simpa only [PhaseLegal, hp] using hlegal
    exact eEmitLine_moves s henc hrun
  | eFlush =>
    obtain ⟨henc, hi⟩ : Encoding s ∧ s.i = s.cells := by simpa only [PhaseLegal, hp] using hlegal
    exact eFlushLine_moves s henc hi
  | dHead => exact dHeadLine_moves s (by simpa only [PhaseLegal, hp] using hlegal)
  | dCount =>
    obtain ⟨-, -, hq, -⟩ : Decoding s ∧ s.out < s.cells ∧ s.p < 2 * s.payloadLen ∧ validCode s.cur = true := by
      simpa only [PhaseLegal, hp] using hlegal
    exact dCountLine_moves s hq
  | dRun =>
    obtain ⟨⟨hc, -, -, -⟩, hpos, -, hfits, -⟩ :
        Decoding s ∧ 1 ≤ s.reps ∧ s.reps ≤ 18 ∧ s.out + s.reps ≤ s.cells ∧ validCode s.cur = true := by
      simpa only [PhaseLegal, hp] using hlegal
    exact dRunLine_moves s hc (by omega)
  | dTail => exact dTailLine_moves s
  | lut => exact lutLine_moves s

/-! ### What an engine line leaves alone (R53, R57, R34) -/

theorem dstByte_congr {s t : State} {a : Nat} (hepoch : t.epoch = s.epoch) (hdst : t.dst.get? a = s.dst.get? a) :
    t.dstByte a = s.dstByte a := by
  rw [State.dstByte, hepoch, hdst, State.dstByte]

/-- Settles O48: by what a line does, an error completion included. -/
theorem engineWritesOnlyItsOutputWindow : Obligations.EngineWritesOnlyItsOutputWindow := by
  intro s t hinv ht
  cases hb : s.busy with
  | false =>
    rw [engineLine_idle s hb] at ht
    cases ht
    exact ⟨rfl, rfl, rfl, rfl, rfl, rfl, rfl, rfl, rfl, rfl, rfl, rfl, rfl, rfl, fun _ _ => rfl⟩
  | true =>
    cases engineLine_moves s (running_of_inv s hinv hb) t ht with
    | works h =>
      have hdst := h.dst
      rw [h.same] at hdst ⊢
      exact ⟨rfl, rfl, rfl, rfl, rfl, rfl, rfl, rfl, rfl, rfl, rfl, rfl, rfl, rfl,
        fun a ha => dstByte_congr rfl (hdst a ha)⟩
    | fails e pos h =>
      have hdst := raiseError_dstByte_outside e pos s
      rw [h]
      rw [raiseError_eq] at hdst ⊢
      exact ⟨rfl, rfl, rfl, rfl, rfl, rfl, rfl, rfl, rfl, rfl, rfl, rfl, rfl, rfl, hdst⟩
    | completes u outCount nibCount lutOut hu h =>
      have hdst := hu.dst
      rw [h]
      rw [hu.same] at hdst ⊢
      exact ⟨rfl, rfl, rfl, rfl, rfl, rfl, rfl, rfl, rfl, rfl, rfl, rfl, rfl, rfl,
        fun a ha => dstByte_congr rfl (hdst a ha)⟩

/-! ### The invariant along engine lines -/

/-- A state in which no command runs is legal as soon as its buffers, STATUS and counters are. -/
theorem inv_of_idle {s t : State} (h : Inv s) (htame : Tame s t) (hb : t.busy = false) (hp : t.phase = .idle)
    (hidden : HiddenFit t) : Inv t where
  sizes := by
    unfold SizesLegal
    rw [htame.srcSize, htame.dstSize]
    exact h.sizes
  buffers := by
    obtain ⟨hsrc, hsrcIn, hdst, hdstIn⟩ := h.buffers
    unfold BuffersLegal
    rw [htame.srcSize, htame.dstSize]
    exact ⟨htame.srcWf hsrc, htame.srcWithin hsrcIn, htame.dstWf hdst, htame.dstWithin hdstIn⟩
  status := htame.status h.status
  phaseBusy := iff_of_false (Bool.eq_false_iff.mp hb) (fun hne => hne hp)
  resultsClear hbusy := absurd hbusy (Bool.eq_false_iff.mp hb)
  hidden := hidden
  phase := by
    unfold PhaseLegal
    rw [hp]
    trivial

/-- A state in which a command runs on. -/
theorem inv_of_running {s t : State} (h : Inv s) (htame : Tame s t) (hrun : Running t)
    (hclear : t.outCount = 0 ∧ t.nibCount = 0 ∧ t.errPos = 0) (hidden : HiddenFit t) : Inv t where
  sizes := by
    unfold SizesLegal
    rw [htame.srcSize, htame.dstSize]
    exact h.sizes
  buffers := by
    obtain ⟨hsrc, hsrcIn, hdst, hdstIn⟩ := h.buffers
    unfold BuffersLegal
    rw [htame.srcSize, htame.dstSize]
    exact ⟨htame.srcWf hsrc, htame.srcWithin hsrcIn, htame.dstWf hdst, htame.dstWithin hdstIn⟩
  status := htame.status h.status
  phaseBusy := iff_of_true hrun.busy hrun.active
  resultsClear _ := hclear
  hidden := hidden
  phase := hrun.legal

theorem engineLine_inv (s : State) (h : Inv s) : Keeps Inv (engineLine s) := by
  intro t ht
  have htame := engineLine_tame s t ht
  cases hb : s.busy with
  | false =>
    rw [engineLine_idle s hb] at ht
    cases ht
    exact h
  | true =>
    have hrun := running_of_inv s h hb
    cases engineLine_moves s hrun t ht with
    | works hworks =>
      obtain ⟨t', ht', hadv⟩ := engineLine_advances s hrun
      obtain rfl : t' = t := Host.Outcome.next.inj (ht'.symm.trans ht)
      have hbusy : t'.busy = true := by rw [hworks.same]; exact hb
      have hclear : t'.outCount = 0 ∧ t'.nibCount = 0 ∧ t'.errPos = 0 := by rw [hworks.same]; exact h.resultsClear hb
      cases hadv with
      | ended hidle _ => exact absurd hbusy (Bool.eq_false_iff.mp hidle)
      | goesOn hrun' _ => exact inv_of_running h htame hrun' hclear (hworks.hidden h.hidden)
    | fails e pos heq =>
      rw [heq] at htame ⊢
      rw [raiseError_eq] at htame ⊢
      exact inv_of_idle h htame rfl rfl h.hidden
    | completes u outCount nibCount lutOut hu heq =>
      rw [heq] at htame ⊢
      exact inv_of_idle h htame rfl rfl (hu.hidden h.hidden)

theorem engineLines_inv (k : Nat) (s : State) (h : Inv s) : Keeps Inv (engineLines k s) := by
  induction k generalizing s with
  | zero => exact keeps_next h
  | succ k ih => exact keeps_andThen (engineLine_inv s h) ih

/-! ### The invariant and the host -/

/-- The host's data, its queue, the draw counter and the turns are no part of the invariant. -/
theorem inv_withHost (s : State) (h : Inv s) (inputs : List PortAccess) (turns : List Turn) (readData : Word) (draws : Nat) :
    Inv { s with inputs := inputs, turns := turns, readData := readData, draws := draws } :=
  ⟨h.sizes, h.buffers, h.status, h.phaseBusy, h.resultsClear, h.hidden, h.phase⟩

theorem phase_of_idle {s : State} (h : Inv s) (hb : s.busy = false) : s.phase = .idle :=
  not_not.mp fun hne => Bool.eq_false_iff.mp hb (h.phaseBusy.mpr hne)

/-- The free values of a reset have their registers' widths (U5). -/
theorem hiddenFit_hiddenUnspecified (s : State) : HiddenFit s.hiddenUnspecified :=
  ⟨BitVec.isLt _, BitVec.isLt _, BitVec.isLt _, BitVec.isLt _, BitVec.isLt _, BitVec.isLt _, BitVec.isLt _⟩

theorem softReset_inv (s : State) (h : Inv s) : Inv (softReset s) := by
  refine inv_of_idle h (tame_softReset s) (softReset_busy s) (softReset_phase s) ?_
  unfold softReset
  split <;> exact hiddenFit_hiddenUnspecified _

theorem externalReset_inv (s : State) (h : Inv s) : Inv (externalReset s) :=
  inv_of_idle h (tame_externalReset s) rfl rfl (hiddenFit_hiddenUnspecified _)

theorem start_inv (op : BitVec 3) (map : Bool) (s : State) (h : Inv s) : Inv (start op map s) := by
  cases hb : s.busy with
  | true =>
    rw [start_busy op map s hb]
    exact h
  | false =>
    have htame := tame_start op map s
    rw [start_idle op map s hb] at htame ⊢
    exact inv_of_running h htame ⟨rfl, nofun, trivial⟩ ⟨rfl, rfl, rfl⟩ h.hidden

/-- The commands a write to CTRL can run. -/
theorem regWrite_ctrl_cases (v : Word) (s : State) :
    regWrite 0 v s = .next (softReset s) ∨
      (∃ op map, regWrite 0 v s = .next (if s.busy then s else { s with op := op, map := map })) ∨
      ∃ op map, regWrite 0 v s = .next (start op map s) := by
  cases h15 : v.getLsbD 15 with
  | true => exact .inl (regWrite_ctrl_srst v s h15)
  | false =>
    cases h0 : v.getLsbD 0 with
    | false => exact .inr (.inl ⟨_, _, regWrite_ctrl_setcfg v s h15 h0⟩)
    | true => exact .inr (.inr ⟨_, _, regWrite_ctrl_start v s h15 h0⟩)

/-- A host write: ignored while BUSY = 1 (R34, R52), and it leaves the engine alone. -/
structure HostWrite (s t : State) : Prop where
  ignored : s.busy = true → t = s
  tame : Tame s t
  busy : t.busy = s.busy
  phase : t.phase = s.phase
  hidden : HiddenFit s → HiddenFit t

theorem hostWrite_refl (s : State) : HostWrite s s := ⟨fun _ => rfl, tame_refl s, rfl, rfl, id⟩

theorem hostWrite_inv {s t : State} (h : Inv s) (hw : HostWrite s t) : Inv t := by
  cases hb : s.busy with
  | true => exact (hw.ignored hb).symm ▸ h
  | false => exact inv_of_idle h hw.tame (hw.busy.trans hb) (hw.phase.trans (phase_of_idle h hb)) (hw.hidden h.hidden)

theorem setcfg_hostWrite (op : BitVec 3) (map : Bool) (s : State) :
    HostWrite s (if s.busy then s else { s with op := op, map := map }) := by
  split
  · exact hostWrite_refl s
  · exact ⟨(absurd · ‹_›), ⟨rfl, rfl, id, id, id, id, id⟩, rfl, rfl, id⟩

theorem writeReg_hostWrite (idx : BitVec 5) (v : Word) (s : State) : HostWrite s (writeReg idx v s) := by
  unfold writeReg
  split
  · exact hostWrite_refl s
  · split
    all_goals exact ⟨(absurd · ‹_›), ⟨rfl, rfl, id, id, id, id, id⟩, rfl, rfl, id⟩

theorem srcWrite_hostWrite (a : Nat) (b : Byte) (s : State) : HostWrite s (srcWrite a b s) := by
  have htame := srcWrite_tame a b s
  unfold srcWrite at htame ⊢
  split
  · exact hostWrite_refl s
  · rw [if_neg ‹_›] at htame
    split
    · rw [if_pos ‹_›] at htame
      exact ⟨(absurd · ‹_›), htame, rfl, rfl, id⟩
    · exact hostWrite_refl s

theorem dstWrite_hostWrite (a : Nat) (b : Byte) (s : State) : HostWrite s (dstWrite a b s) := by
  have htame := dstWrite_tame a b s
  unfold dstWrite at htame ⊢
  split
  · exact hostWrite_refl s
  · rw [if_neg ‹_›] at htame
    split
    · rw [if_pos ‹_›] at htame
      exact ⟨(absurd · ‹_›), htame, rfl, rfl, id⟩
    · exact hostWrite_refl s

theorem bufferRead_inv (inside : Bool) (held : Byte) (s : State) (h : Inv s) : Inv (bufferRead inside held s) := by
  unfold bufferRead
  split <;> exact inv_withHost s h _ _ _ _

/-- Every access has its effect, and it is legal. -/
theorem portAccess_inv (a : PortAccess) (s : State) (h : Inv s) : ∃ t, portAccess a s = .next t ∧ Inv t := by
  cases a with
  | regWrite idx v =>
    by_cases hidx : idx = 0
    · subst hidx
      rcases regWrite_ctrl_cases v s with hw | ⟨op, map, hw⟩ | ⟨op, map, hw⟩
      · exact ⟨_, hw, softReset_inv s h⟩
      · exact ⟨_, hw, hostWrite_inv h (setcfg_hostWrite op map s)⟩
      · exact ⟨_, hw, start_inv op map s h⟩
    · exact ⟨_, regWrite_other idx v s hidx, hostWrite_inv h (writeReg_hostWrite idx v s)⟩
  | regRead idx => exact ⟨_, rfl, inv_withHost s h _ _ _ _⟩
  | srcWrite a b => exact ⟨_, rfl, hostWrite_inv h (srcWrite_hostWrite _ b s)⟩
  | srcRead a => exact ⟨_, rfl, bufferRead_inv _ _ s h⟩
  | dstWrite a b => exact ⟨_, rfl, hostWrite_inv h (dstWrite_hostWrite _ b s)⟩
  | dstRead a => exact ⟨_, rfl, bufferRead_inv _ _ s h⟩
  | waitIdle => exact ⟨_, rfl, inv_withHost s h _ _ _ _⟩
  | extReset => exact ⟨_, rfl, externalReset_inv s h⟩

/-! ### The invariant along steps -/

theorem engineLine_next_inv (s : State) (h : Inv s) : ∃ t, engineLine s = .next t ∧ Inv t := by
  have hnext : ∃ t, engineLine s = .next t := by
    cases hb : s.busy with
    | false => exact ⟨s, engineLine_idle s hb⟩
    | true =>
      obtain ⟨t, ht, -⟩ := engineLine_advances s (running_of_inv s h hb)
      exact ⟨t, ht⟩
  obtain ⟨t, ht⟩ := hnext
  exact ⟨t, ht, engineLine_inv s h t ht⟩

theorem runTurn_next_inv (turn : Turn) (s : State) (h : Inv s) : ∃ t, runTurn turn s = .next t ∧ Inv t := by
  cases turn with
  | host =>
    cases hin : s.inputs with
    | nil => exact ⟨s, hostTurn_none s hin, h⟩
    | cons a rest =>
      obtain ⟨t, ht, hinv⟩ := portAccess_inv a { s with inputs := rest } (inv_withHost s h rest s.turns s.readData s.draws)
      exact ⟨t, (hostTurn_some s a rest hin).trans ht, hinv⟩
  | engineLine => exact engineLine_next_inv s h
  | engineToken =>
    cases hfetch : s.fetchToken with
    | none =>
      obtain ⟨t, ht, hinv⟩ := engineLine_next_inv s h
      exact ⟨t, (tokenTurn_none s hfetch).trans ht, hinv⟩
    | some i =>
      obtain ⟨t, k, hexec, -, -, hlines⟩ := tokenStepIsItsEngineLines s i h hfetch
      exact ⟨t, (tokenTurn_fetched s i hfetch).trans hexec, engineLines_inv k s h t hlines⟩

theorem step_next_inv (s : State) (h : Inv s) : ∃ t, step s = .next t ∧ Inv t := by
  obtain ⟨turn, ts, hstep⟩ := step_eq_runTurn s
  rw [hstep]
  exact runTurn_next_inv turn _ (inv_withHost s h s.inputs ts s.readData s.draws)

/-- Settles O46: every turn of a legal state has an answer. -/
theorem legalStatesNeverStop : Obligations.LegalStatesNeverStop := by
  intro s h
  obtain ⟨t, ht, -⟩ := step_next_inv s h
  exact ⟨t, ht⟩

/-- Settles O45: every turn of a legal state answers a legal one. -/
theorem everyStepKeepsTheInvariant : Obligations.EveryStepKeepsTheInvariant := by
  intro s t h ht
  obtain ⟨t', ht', hinv⟩ := step_next_inv s h
  exact Host.Outcome.next.inj (ht'.symm.trans ht) ▸ hinv

/-- Settles O44: the reset state by evaluation, and its registers as those of a reset transition. -/
theorem resetStateIsLegal : Obligations.ResetStateIsLegal := by
  refine ⟨⟨?sizes, ?buffers, ?status, ?phaseBusy, ?resultsClear, ?hidden, trivial⟩, fun idx => ?registers, rfl⟩
  case sizes => unfold SizesLegal; decide
  case buffers => unfold BuffersLegal; decide
  case status => unfold StatusLegal; decide
  case phaseBusy => decide
  case resultsClear => decide
  case hidden => unfold HiddenFit; decide
  case registers => exact registersReset_readReg State.reset idx

end Sys2Proof.Machine

/-! SUPPORT. Noninterference of the two sides while a command runs (20_memory.md R52, R53): what SRC holds outside the input
window does not reach the engine, and a host access that is no reset does not reach the block. -/

namespace Sys2Proof.Machine

/-! ### Other bytes in SRC -/

/-- The same state with SRC exchanged. -/
def State.withSrc (s : State) (m : Memory) : State := { s with src := m }

/-- The same answer with SRC exchanged. -/
def mapSrc (m : Memory) : Result → Result
  | .next s => .next (s.withSrc m)
  | .fault e => .fault e
  | .refused r => .refused r

section
variable (m : Memory)

theorem ite_withSrc (c : Prop) [Decidable c] {x x' y y' : Result} (hx : c → x' = mapSrc m x)
    (hy : ¬ c → y' = mapSrc m y) : (if c then x' else y') = mapSrc m (if c then x else y) := by
  by_cases h : c
  · rw [if_pos h, if_pos h, hx h]
  · rw [if_neg h, if_neg h, hy h]

theorem andThen_withSrc {x x' : Result} {f f' : State → Result} (hx : x' = mapSrc m x)
    (hf : ∀ s : State, f' (s.withSrc m) = mapSrc m (f s)) : andThen x' f' = mapSrc m (andThen x f) := by
  subst hx
  cases x with
  | next s => exact hf s
  | fault e => rfl
  | refused r => rfl

theorem raiseError_withSrc (e : ErrorName) (pos : Nat) (s : State) :
    raiseError e pos (s.withSrc m) = (raiseError e pos s).withSrc m := by
  cases h : s.isDecoding with
  | false => rw [raiseError_notDecoding e pos s h, raiseError_notDecoding e pos (s.withSrc m) h]; rfl
  | true => rw [raiseError_decoding e pos s h, raiseError_decoding e pos (s.withSrc m) h]; rfl

theorem next_raiseError_withSrc (e : ErrorName) (pos : Nat) (s : State) :
    .next (raiseError e pos (s.withSrc m)) = mapSrc m (.next (raiseError e pos s)) :=
  congrArg Host.Outcome.next (raiseError_withSrc m e pos s)

/-! ### Parts of a line that read nothing -/

theorem memWrite_withSrc (a : Nat) (b : Byte) (s : State) : memWrite a b (s.withSrc m) = mapSrc m (memWrite a b s) :=
  ite_withSrc m (a < s.dstSize) (fun _ => rfl) (fun _ => rfl)

theorem writeTile_withSrc (t : Tile) (s : State) : writeTile t (s.withSrc m) = mapSrc m (writeTile t s) :=
  andThen_withSrc m (memWrite_withSrc m _ _ s) fun _ => rfl

theorem litHead_withSrc (t : Tile) (s : State) : litHead t (s.withSrc m) = mapSrc m (litHead t s) :=
  andThen_withSrc m (writeTile_withSrc m t s) fun _ => rfl

theorem headLine_withSrc (h : Nibble) (s : State) : headLine h (s.withSrc m) = mapSrc m (headLine h s) := by
  unfold headLine
  cases tileOfCode (terrainCode h) with
  | none => exact next_raiseError_withSrc m _ _ s
  | some t =>
    cases controlBit h with
    | true => rfl
    | false => exact litHead_withSrc m t s

theorem dRunLine_withSrc (s : State) : dRunLine (s.withSrc m) = mapSrc m (dRunLine s) := by
  have hcur : (s.withSrc m).cur = s.cur := rfl
  unfold dRunLine
  rw [hcur]
  cases tileOfCode s.cur with
  | none => rfl
  | some t => exact andThen_withSrc m (writeTile_withSrc m t s) fun _ => rfl

theorem runCount_withSrc (n : Nat) (s : State) :
    .next (runCount n (s.withSrc m)) = mapSrc m (.next (runCount n s)) := by
  by_cases h : s.out + n + 3 > s.cells
  · rw [runCount_overrun n s h, runCount_overrun n (s.withSrc m) h]
    exact next_raiseError_withSrc m _ _ s
  · unfold runCount
    rw [if_neg h]
    exact congrArg Host.Outcome.next (if_neg h)

theorem dTailLine_withSrc (s : State) : dTailLine (s.withSrc m) = mapSrc m (dTailLine s) :=
  ite_withSrc m (halfUp s.p < s.payloadLen) (fun _ => next_raiseError_withSrc m _ _ s) (fun _ => rfl)

theorem push_withSrc (n : Nibble) (s : State) : push n (s.withSrc m) = mapSrc m (push n s) :=
  ite_withSrc m (s.half = true) (fun _ => andThen_withSrc m (memWrite_withSrc m _ _ s) fun _ => rfl) (fun _ => rfl)

theorem eEmitLine_withSrc (s : State) : eEmitLine (s.withSrc m) = mapSrc m (eEmitLine s) := by
  refine ite_withSrc m (s.r < 3) (fun _ => ?lit) (fun _ => ite_withSrc m (s.r ≤ 18) (fun _ => ?run) (fun _ => rfl))
  case lit => exact andThen_withSrc m (push_withSrc m s.cur s) fun _ => rfl
  case run =>
    exact andThen_withSrc m (push_withSrc m _ s) fun t => andThen_withSrc m (push_withSrc m _ t) fun _ => rfl

theorem eFlushLine_withSrc (s : State) : eFlushLine (s.withSrc m) = mapSrc m (eFlushLine s) := by
  have hflush : flushHalf (s.withSrc m) = mapSrc m (flushHalf s) :=
    ite_withSrc m (s.half = true) (fun _ => andThen_withSrc m (memWrite_withSrc m _ _ s) fun _ => rfl) (fun _ => rfl)
  exact andThen_withSrc m hflush fun _ => rfl

theorem finishLut_withSrc (result : Option Nibble) (s : State) :
    finishLut result (s.withSrc m) = mapSrc m (finishLut result s) := by
  cases result with
  | some v => rfl
  | none => exact next_raiseError_withSrc m _ _ s

theorem lutLine_withSrc (s : State) : lutLine (s.withSrc m) = mapSrc m (lutLine s) := by
  have hc : (s.withSrc m).command = s.command := rfl
  unfold lutLine
  rw [hc]
  cases s.command with
  | lutEnc => exact finishLut_withSrc m _ s
  | lutDec => exact finishLut_withSrc m _ s
  | _ => rfl

theorem checkLine_withSrc (s : State) : checkLine (s.withSrc m) = mapSrc m (checkLine s) := by
  have hc : (s.withSrc m).command = s.command := rfl
  have hunfit (e : ErrorName) : ¬ s.windowsFit = true →
      .next (raiseError e 0 (s.withSrc m)) = mapSrc m (.next (raiseError e 0 s)) :=
    fun _ => next_raiseError_withSrc m e 0 s
  unfold checkLine
  rw [hc]
  cases s.command with
  | encode => exact ite_withSrc m (s.windowsFit = true) (fun _ => rfl) (hunfit _)
  | decode => exact ite_withSrc m (s.windowsFit = true) (fun _ => rfl) (hunfit _)
  | lutEnc => rfl
  | lutDec => rfl
  | reserved => exact next_raiseError_withSrc m _ _ s

/-! ### Reads inside the input window (R57) -/

/-- `m` and SRC agree on the input window of the command. -/
def AgreeOnInput (s : State) : Prop :=
  ∀ a, s.sb ≤ a → a < s.sb + s.inputLen → (s.withSrc m).srcByte a = s.srcByte a

theorem memRead_withSrc (s : State) (h : AgreeOnInput m s) (a : Nat) (hlo : s.sb ≤ a) (hhi : a < s.sb + s.inputLen)
    {use use' : Byte → Result} (huse : ∀ b, use' b = mapSrc m (use b)) :
    memRead (s.withSrc m) a use' = mapSrc m (memRead s a use) :=
  ite_withSrc m (a < s.srcSize) (fun _ => by rw [h a hlo hhi, huse]) (fun _ => rfl)

theorem readTileCode_withSrc (s : State) (h : AgreeOnInput m s) (hc : s.command = .encode) (j : Nat) (hj : j < s.cells)
    {use use' : Nibble → Result} (huse : ∀ c, use' c = mapSrc m (use c)) :
    readTileCode (s.withSrc m) j use' = mapSrc m (readTileCode s j use) := by
  have hlen : s.inputLen = s.cells := by rw [State.inputLen, hc]
  refine memRead_withSrc m s h (s.sb + j) (Nat.le_add_right _ _) (by omega) fun b => ?_
  have hmap : (s.withSrc m).map = s.map := rfl
  rw [hmap]
  cases tileOfByte s.map b with
  | none => rfl
  | some t => exact huse t.code

theorem readNibble_withSrc (s : State) (h : AgreeOnInput m s) (hc : s.command = .decode) (q : Nat)
    (hq : q < 2 * s.payloadLen) {use use' : Nibble → Result} (huse : ∀ n, use' n = mapSrc m (use n)) :
    readNibble (s.withSrc m) q use' = mapSrc m (readNibble s q use) := by
  have hlen : s.inputLen = s.payloadLen := by rw [State.inputLen, hc]
  exact memRead_withSrc m s h (s.sb + q / 2) (Nat.le_add_right _ _) (by omega) fun b => huse _

theorem eValLine_withSrc (s : State) (h : AgreeOnInput m s) (hc : s.command = .encode) (hi : s.i ≤ s.cells) :
    eValLine (s.withSrc m) = mapSrc m (eValLine s) := by
  have hlen : s.inputLen = s.cells := by rw [State.inputLen, hc]
  refine ite_withSrc m (s.i = s.cells) (fun _ => rfl) fun hmore => ?_
  refine memRead_withSrc m s h (s.sb + s.i) (Nat.le_add_right _ _) (by omega) fun b => ?_
  exact ite_withSrc m (inValid s.map b = true) (fun _ => rfl) fun _ => next_raiseError_withSrc m _ _ s

theorem eScanLine_withSrc (s : State) (h : AgreeOnInput m s) (hc : s.command = .encode) :
    eScanLine (s.withSrc m) = mapSrc m (eScanLine s) := by
  refine ite_withSrc m (s.i + s.r < s.cells ∧ s.r < 18) (fun hmore => ?_) (fun _ => rfl)
  exact readTileCode_withSrc m s h hc (s.i + s.r) hmore.1 fun c =>
    ite_withSrc m (c = s.cur) (fun _ => rfl) (fun _ => rfl)

theorem dHeadLine_withSrc (s : State) (h : AgreeOnInput m s) (hc : s.command = .decode) (hp : s.p ≤ 2 * s.payloadLen) :
    dHeadLine (s.withSrc m) = mapSrc m (dHeadLine s) := by
  refine ite_withSrc m (s.out = s.cells) (fun _ => rfl) fun _ => ?_
  refine ite_withSrc m (s.p = 2 * s.payloadLen) (fun _ => next_raiseError_withSrc m _ _ s) fun hmore => ?_
  exact readNibble_withSrc m s h hc s.p (by omega) fun head => headLine_withSrc m head s

theorem dCountLine_withSrc (s : State) (h : AgreeOnInput m s) (hc : s.command = .decode) (hp : s.p < 2 * s.payloadLen) :
    dCountLine (s.withSrc m) = mapSrc m (dCountLine s) := by
  refine ite_withSrc m (s.countMissing = true) (fun _ => next_raiseError_withSrc m _ _ s) fun hpresent => ?_
  have hne : s.p + 1 ≠ 2 * s.payloadLen := mt (countMissing_iff s).mpr hpresent
  exact readNibble_withSrc m s h hc (s.p + 1) (by omega) fun n => runCount_withSrc m n.toNat s

theorem engineLine_withSrc (s : State) (hrun : Running s) (h : AgreeOnInput m s) :
    engineLine (s.withSrc m) = mapSrc m (engineLine s) := by
  have hlegal := hrun.legal
  rw [engineLine_busy s hrun.busy, engineLine_busy (s.withSrc m) hrun.busy]
  unfold phaseLine
  have hphase : (s.withSrc m).phase = s.phase := rfl
  rw [hphase]
  cases hp : s.phase with
  | idle => rfl
  | check => exact checkLine_withSrc m s
  | eVal =>
    obtain ⟨hc, -, hi, -⟩ : s.command = .encode ∧ s.windowsFit = true ∧ s.i ≤ s.cells ∧ InputValid s s.i := by
      simpa only [PhaseLegal, hp] using hlegal
    exact eValLine_withSrc m s h hc hi
  | eLoad =>
    obtain ⟨⟨hc, -⟩, hi⟩ : Encoding s ∧ s.i < s.cells := by simpa only [PhaseLegal, hp] using hlegal
    exact readTileCode_withSrc m s h hc s.i hi fun _ => rfl
  | eScan =>
    obtain ⟨⟨hc, -⟩, -⟩ : Encoding s ∧ RunScanned s := by simpa only [PhaseLegal, hp] using hlegal
    exact eScanLine_withSrc m s h hc
  | eEmit => exact eEmitLine_withSrc m s
  | eFlush => exact eFlushLine_withSrc m s
  | dHead =>
    obtain ⟨hc, -, -, hptr⟩ : Decoding s := by simpa only [PhaseLegal, hp] using hlegal
    exact dHeadLine_withSrc m s h hc hptr
  | dCount =>
    obtain ⟨⟨hc, -⟩, -, hq, -⟩ :
        Decoding s ∧ s.out < s.cells ∧ s.p < 2 * s.payloadLen ∧ validCode s.cur = true := by
      simpa only [PhaseLegal, hp] using hlegal
    exact dCountLine_withSrc m s h hc hq
  | dRun => exact dRunLine_withSrc m s
  | dTail => exact dTailLine_withSrc m s
  | lut => exact lutLine_withSrc m s

end

/-- Settles O49: the line on the other SRC is the same line with SRC exchanged. -/
theorem engineReadsOnlyItsInputWindow : Obligations.EngineReadsOnlyItsInputWindow := by
  intro s t m hinv hagree ht
  by_cases hb : s.busy = true
  · have hline := engineLine_withSrc m s (running_of_inv s hinv hb) hagree
    rw [ht] at hline
    exact hline
  · have hidle : s.busy = false := Bool.eq_false_iff.mpr hb
    rw [engineLine_idle s hidle] at ht
    cases ht
    exact engineLine_idle (s.withSrc m) hidle

/-! ### Host accesses while BUSY = 1 (R34, R52) -/

/-- What an access of the host that is no reset does to a busy block, its entry of the queue already taken. -/
theorem portAccess_busy (a : PortAccess) (s : State) (hb : s.busy = true) (ha : a.resets = false) :
    ∃ readData draws, portAccess a s = .next { s with
        inputs := if a = .waitIdle then .waitIdle :: s.inputs else s.inputs, readData := readData, draws := draws } ∧
      ∀ idx, a = .regRead idx → readData = s.readReg idx := by
  cases a with
  | regWrite idx v =>
    refine ⟨s.readData, s.draws, ?_, nofun⟩
    by_cases hidx : idx = 0
    · subst hidx
      have h15 : v.getLsbD 15 = false := ha
      exact regWrite_ctrl_busy v s hb h15
    · exact regWrite_other_busy idx v s hb hidx
  | regRead idx => exact ⟨s.readReg idx, s.draws, rfl, fun _ h => congrArg s.readReg (PortAccess.regRead.inj h)⟩
  | srcWrite a b => exact ⟨s.readData, s.draws, congrArg Host.Outcome.next (if_pos hb), nofun⟩
  | srcRead a => exact ⟨_, s.draws + 1, congrArg Host.Outcome.next (if_pos hb), nofun⟩
  | dstWrite a b => exact ⟨s.readData, s.draws, congrArg Host.Outcome.next (if_pos hb), nofun⟩
  | dstRead a => exact ⟨_, s.draws + 1, congrArg Host.Outcome.next (if_pos hb), nofun⟩
  | waitIdle => exact ⟨s.statusWord, s.draws, by simp [portAccess, pollIdle, hb], nofun⟩
  | extReset => exact absurd ha nofun

/-- Settles O50: access by access, on the state with the turn and the access taken. -/
theorem hostAccessWhileBusyChangesNothing : Obligations.HostAccessWhileBusyChangesNothing := by
  intro s a rest ts hb hturns hin ha
  obtain ⟨readData, draws, haccess, hread⟩ := portAccess_busy a { s with turns := ts, inputs := rest } hb ha
  have hstep : step s = portAccess a { s with turns := ts, inputs := rest } := by
    rw [step, hturns]
    exact hostTurn_some { s with turns := ts } a rest hin
  refine ⟨_, hstep.trans haccess, ?_, hread⟩
  by_cases hwait : a = .waitIdle
  · rw [if_pos hwait, if_pos hwait, hin, hwait]
  · rw [if_neg hwait, if_neg hwait]

end Sys2Proof.Machine

/-! SUPPORT. The host's side: register and buffer accesses of an idle block (10_state.md R33, R35, 20_memory.md R51), external
reset (70_reset_and_hazards.md R200), and which instruction a step runs (42_rle_decode.md R142, R143). -/

namespace Sys2Proof.Machine

/-! ### Register reads -/

theorem ctrlWord_toNat (s : State) : s.ctrlWord.toNat = 2 * s.op.toNat + 16 * s.map.toNat := by
  have h : ∀ (op : BitVec 3) (map : Bool),
      (flagAt 4 map ||| (op.setWidth 32 <<< 1)).toNat = 2 * op.toNat + 16 * map.toNat := by decide
  exact h s.op s.map

theorem statusWord_toNat (s : State) :
    s.statusWord.toNat = s.busy.toNat + 2 * s.done.toNat + 4 * s.err.toNat + 16 * s.errCode.toNat := by
  have h : ∀ (busy done err : Bool) (code : BitVec 4),
      (flagAt 0 busy ||| flagAt 1 done ||| flagAt 2 err ||| (code.setWidth 32 <<< 4)).toNat =
        busy.toNat + 2 * done.toNat + 4 * err.toNat + 16 * code.toNat := by decide
  exact h s.busy s.done s.err s.errCode

/-- A field as wide as a register or narrower keeps its value in a read. -/
theorem toNat_readField {n : Nat} (x : BitVec n) (h : n ≤ 32) : (x.setWidth 32 : Word).toNat = x.toNat :=
  BitVec.toNat_setWidth_of_le h

theorem readReg_reserved (s : State) (idx : BitVec 5) (h : 11 ≤ idx.toNat) : s.readReg idx = 0 := by
  unfold State.readReg
  split
  case h_12 => rfl
  all_goals omega

/-- Settles O17: the two flag registers by their bits, the others by their one field. -/
theorem registerReadsShowTheFields : Obligations.RegisterReadsShowTheFields := fun s =>
  ⟨ctrlWord_toNat s, statusWord_toNat s, toNat_readField s.outCount (by decide), toNat_readField s.nibCount (by decide),
    toNat_readField s.errPos (by decide), toNat_readField s.lutOut (by decide), readReg_reserved s, fun _ => rfl⟩

/-! ### Read after write (R24 to R27, R31) -/

/-- The five writable registers as fields. -/
inductive ConfigReg where
  | cellCount
  | srcBase
  | srcLen
  | dstBase
  | lutIn

/-- The register's index and width (R21). -/
def ConfigReg.row : ConfigReg → BitVec 5 × Nat
  | .cellCount => (2, 16)
  | .srcBase => (3, 16)
  | .srcLen => (4, 16)
  | .dstBase => (5, 16)
  | .lutIn => (9, 4)

/-- The state with the register written. -/
def ConfigReg.write (reg : ConfigReg) (v : Word) (s : State) : State :=
  match reg with
  | .cellCount => { s with cellCount := v.extractLsb' 0 16 }
  | .srcBase => { s with srcBase := v.extractLsb' 0 16 }
  | .srcLen => { s with srcLen := v.extractLsb' 0 16 }
  | .dstBase => { s with dstBase := v.extractLsb' 0 16 }
  | .lutIn => { s with lutIn := v.extractLsb' 0 4 }

theorem configReg_of_row : ∀ x ∈ ([(2, 16), (3, 16), (4, 16), (5, 16), (9, 4)] : List (BitVec 5 × Nat)),
    ∃ reg : ConfigReg, x = reg.row := by
  simp only [List.forall_mem_cons]
  exact ⟨⟨.cellCount, rfl⟩, ⟨.srcBase, rfl⟩, ⟨.srcLen, rfl⟩, ⟨.dstBase, rfl⟩, ⟨.lutIn, rfl⟩, fun _ h => nomatch h⟩

section
variable (reg : ConfigReg) (v : Word) (s : State)

theorem regWrite_configReg (hb : s.busy = false) : regWrite reg.row.1 v s = .next (reg.write v s) := by
  cases reg with
  | cellCount => exact regWrite_cellCount v s hb
  | srcBase => exact regWrite_srcBase v s hb
  | srcLen => exact regWrite_srcLen v s hb
  | dstBase => exact regWrite_dstBase v s hb
  | lutIn => exact regWrite_lutIn v s hb

theorem readReg_write_self : ((reg.write v s).readReg reg.row.1).toNat = v.toNat % 2 ^ reg.row.2 := by
  have hlow (w : Nat) (hw : w ≤ 32) : ((v.extractLsb' 0 w).setWidth 32 : Word).toNat = v.toNat % 2 ^ w := by
    rw [toNat_readField _ hw, BitVec.extractLsb'_toNat, Nat.shiftRight_zero]
  cases reg with
  | lutIn => exact hlow 4 (by decide)
  | _ => exact hlow 16 (by decide)

/-- Every other index reads another field. -/
theorem readReg_write_other (idx : BitVec 5) (h : idx ≠ reg.row.1) : (reg.write v s).readReg idx = s.readReg idx := by
  have hne : idx.toNat ≠ reg.row.1.toNat := fun heq => h (BitVec.eq_of_toNat_eq heq)
  unfold State.readReg
  cases reg with
  | cellCount =>
    split
    case h_3 hidx => exact absurd hidx hne
    all_goals rfl
  | srcBase =>
    split
    case h_4 hidx => exact absurd hidx hne
    all_goals rfl
  | srcLen =>
    split
    case h_5 hidx => exact absurd hidx hne
    all_goals rfl
  | dstBase =>
    split
    case h_6 hidx => exact absurd hidx hne
    all_goals rfl
  | lutIn =>
    split
    case h_10 hidx => exact absurd hidx hne
    all_goals rfl

end

/-- Settles O16: register by register. -/
theorem writtenRegisterReadsBack : Obligations.WrittenRegisterReadsBack := by
  intro s v hb x hx
  obtain ⟨reg, rfl⟩ := configReg_of_row x hx
  exact ⟨reg.write v s, regWrite_configReg reg v s hb, readReg_write_self reg v s, readReg_write_other reg v s⟩

/-! ### Buffer accesses of an idle block (R51) -/

theorem srcByte_set (s : State) (a b : Nat) (v : Byte) :
    ({ s with src := s.src.set a v } : State).srcByte b = if b = a then v else s.srcByte b := by
  simp only [State.srcByte, get?_set]
  split <;> rfl

section
variable (s : State) (hb : s.busy = false)
include hb

theorem srcWrite_idle (a : Nat) (b : Byte) :
    srcWrite a b s = if a < s.srcSize then { s with src := s.src.set a b } else s :=
  if_neg (Bool.eq_false_iff.mp hb)

theorem dstWrite_idle (a : Nat) (b : Byte) :
    dstWrite a b s = if a < s.dstSize then { s with dst := s.dst.set a b } else s :=
  if_neg (Bool.eq_false_iff.mp hb)

theorem bufferRead_idle (size a : Nat) (held : Byte) :
    bufferRead (decide (a < size)) held s = { s with readData := if a < size then held.setWidth 32 else 0 } := by
  simp only [bufferRead, hb, Bool.false_eq_true, if_false, decide_eq_true_eq]

end

/-- Settles O51: SRC and DST, inside and beyond the size. -/
theorem idleBufferAccess : Obligations.IdleBufferAccess := by
  intro s a b hb
  have hread (size : Nat) (held : Byte) := bufferRead_idle s hb size a.toNat held
  simp only [portAccess, srcWrite_idle s hb, dstWrite_idle s hb, hread]
  refine ⟨fun hin => ?srcIn, fun hout => ?srcOut, fun hin => ?dstIn, fun hout => ?dstOut⟩
  case srcIn =>
    rw [if_pos hin, if_pos hin]
    exact ⟨⟨_, rfl, rfl, fun x => srcByte_set s a.toNat x b⟩, rfl⟩
  case srcOut =>
    rw [if_neg (Nat.not_lt_of_le hout), if_neg (Nat.not_lt_of_le hout)]
    exact ⟨rfl, rfl⟩
  case dstIn =>
    rw [if_pos hin, if_pos hin]
    exact ⟨⟨_, rfl, rfl, fun x => dstByte_set s a.toNat x b⟩, rfl⟩
  case dstOut =>
    rw [if_neg (Nat.not_lt_of_le hout), if_neg (Nat.not_lt_of_le hout)]
    exact ⟨rfl, rfl⟩

/-! ### External reset (R200) -/

/-- Settles O52: the registers as after a soft reset, and two empty buffers of the new epoch. -/
theorem externalResetClearsTheBlock : Obligations.ExternalResetClearsTheBlock := fun s =>
  ⟨externalReset s, rfl, registersReset_readReg s, rfl, rfl, fun _ => rfl, fun _ => rfl, rfl, rfl, rfl, rfl⟩

/-! ### What a step runs -/

theorem hostTurn_ctrl (s : State) (v : Word) (rest : List PortAccess) (h : s.inputs = .regWrite 0 v :: rest) :
    hostTurn s = exec (decodeCommand v) { s with inputs := rest } :=
  (hostTurn_some s _ rest h).trans (regWrite_ctrl v _)

/-- With no turn listed the default one moves (log 1). -/
theorem step_default (s : State) (h : s.turns = []) : step s = runTurn s.defaultTurn s := by rw [step, h]

theorem step_listed (s : State) (turn : Turn) (ts : List Turn) (h : s.turns = turn :: ts) :
    step s = runTurn turn { s with turns := ts } := by rw [step, h]

theorem defaultTurn_idle (s : State) (hb : s.busy = false) : s.defaultTurn = .host := if_neg (Bool.eq_false_iff.mp hb)

theorem defaultTurn_busy (s : State) (hb : s.busy = true) : s.defaultTurn = .engineToken := if_pos hb

/-- Settles O7: the host's turn, by default or listed. -/
theorem stepRunsTheCommandWritten : Obligations.StepRunsTheCommandWritten := by
  intro s v rest hin
  refine ⟨fun hturns hb => ?_, fun ts hturns => ?_⟩
  · rw [step_default s hturns, defaultTurn_idle s hb]
    exact hostTurn_ctrl s v rest hin
  · rw [step_listed s _ ts hturns]
    exact hostTurn_ctrl { s with turns := ts } v rest hin

/-- A token is fetched where R143 says so. -/
theorem fetchToken_of_decoded (s : State) (i : Instr) (rest : List Nibble) (hb : s.busy = true) (hphase : s.phase = .dHead)
    (hout : s.out < s.cells) (hp : s.p < 2 * s.payloadLen) (hsrc : s.sb + s.payloadLen ≤ s.srcSize)
    (hdecode : decodeToken s.tokenNibbles = .ok (i, rest)) : s.fetchToken = some i := by
  have hinside : s.tokenInside = true := by
    have hhead : s.nibbleAddr s.p < s.srcSize := by
      unfold State.nibbleAddr
      omega
    have hcount : s.nibbleAddr (s.p + 1) < s.srcSize ∨ 2 * s.payloadLen ≤ s.p + 1 := by
      unfold State.nibbleAddr
      omega
    rw [State.tokenInside, Bool.and_eq_true, Bool.or_eq_true, decide_eq_true_iff, decide_eq_true_iff, decide_eq_true_iff]
    exact ⟨hhead, hcount⟩
  rw [State.fetchToken, if_pos ⟨hb, hphase, hout, hinside⟩, hdecode]

/-- Settles O8: the token turn, by default or listed. -/
theorem stepRunsTheTokenFetched : Obligations.StepRunsTheTokenFetched := by
  intro s i rest hb hphase hout hp hsrc hdecode
  have hfetch := fetchToken_of_decoded s i rest hb hphase hout hp hsrc hdecode
  refine ⟨fun hturns => ?_, fun ts hturns => ?_⟩
  · rw [step_default s hturns, defaultTurn_busy s hb]
    exact tokenTurn_fetched s i hfetch
  · rw [step_listed s _ ts hturns]
    exact tokenTurn_fetched { s with turns := ts } i hfetch

/-- An idle block has no token to fetch. -/
theorem tokenTurn_idle (s : State) (hb : s.busy = false) : tokenTurn s = .next s := by
  have hnone : s.fetchToken = none := if_neg fun h => Bool.eq_false_iff.mp hb h.1
  rw [tokenTurn_none s hnone, engineLine_idle s hb]

theorem runTurn_idle (turn : Turn) (s : State) (hb : s.busy = false) (h : turn ≠ .host ∨ s.inputs = []) :
    runTurn turn s = .next s := by
  cases turn with
  | host => exact hostTurn_none s (h.resolve_left (· rfl))
  | engineLine => exact engineLine_idle s hb
  | engineToken => exact tokenTurn_idle s hb

/-- Settles O10: turn by turn. -/
theorem idleBlockDoesNothing : Obligations.IdleBlockDoesNothing := by
  intro s hb
  refine ⟨fun turn ts hturns h => ?_, fun hin hturns => ?_⟩
  · rw [step_listed s turn ts hturns]
    exact runTurn_idle turn { s with turns := ts } hb h
  · rw [step_default s hturns]
    exact runTurn_idle _ s hb (.inr hin)

/-! ### The nibbles of the payload (R142, R54) -/

theorem getElem?_unpackBytes : ∀ (bs : List Byte) (q : Nat), (unpackBytes bs)[q]? = bs[q / 2]?.map (nibbleOf q)
  | [], _ => rfl
  | _ :: _, 0 => rfl
  | _ :: _, 1 => rfl
  | b :: bs, q + 2 => by
    have hhalf : (q + 2) / 2 = q / 2 + 1 := Nat.add_div_right q (by decide)
    have hsame : nibbleOf (q + 2) = nibbleOf q := by
      funext c
      rw [nibbleOf, nibbleOf, Nat.add_mod_right]
    rw [hhalf, hsame, List.getElem?_cons_succ]
    exact getElem?_unpackBytes bs q

theorem getElem?_srcBytes (s : State) (base len j : Nat) (hj : j < len) :
    (s.srcBytes base len)[j]? = some (s.srcByte (base + j)) := by
  rw [State.srcBytes, List.getElem?_map, List.getElem?_range hj]
  rfl

/-- Settles O9: nibble `q` is a half of byte `q / 2`. -/
theorem fetchedNibblesAreTheUnpackedPayload : Obligations.FetchedNibblesAreTheUnpackedPayload := by
  intro s q hq
  rw [getElem?_unpackBytes, getElem?_srcBytes s s.sb s.payloadLen (q / 2) (by omega)]
  rfl

/-! ### The LUT commands undo each other (40_tile_lut.md R107) -/

/-- The other LUT command. -/
def otherLut (op : BitVec 3) : BitVec 3 := if op = 2 then 3 else 2

theorem lutResult_otherLut : ∀ op ∈ ([2, 3] : List (BitVec 3)), ∀ x v : Nibble,
    lutResult op x = some v → lutResult (otherLut op) v = some x := by decide

theorem lut_op_mem {op : BitVec 3} (h : op = 2 ∨ op = 3) : op ∈ ([2, 3] : List (BitVec 3)) := by
  rcases h with rfl | rfl <;> decide

/-- Two LUT commands, the second on the first one's result, whatever MAP is. -/
theorem run_lut_then_other (s : State) (m m' : Bool) (op : BitVec 3) (hop : op = 2 ∨ op = 3) (hb : s.busy = false)
    (ht : s.turns = []) :
    ∃ u, Host.Core.run Sys2Proof.core 2 (start op m s) = .next u ∧
      (u.err = false → ∃ u', Host.Core.run Sys2Proof.core 2 (start (otherLut op) m' { u with lutIn := u.lutOut }) = .next u' ∧
        u'.err = false ∧ u'.lutOut = s.lutIn) := by
  have hother : otherLut op = 2 ∨ otherLut op = 3 := by rcases hop with rfl | rfl <;> decide
  refine ⟨_, run_two_of_lut_start s op m hop hb ht, fun hok => ?_⟩
  cases hres : lutResult op s.lutIn with
  | none =>
    rw [hres] at hok
    nomatch hok
  | some v =>
    have hback := lutResult_otherLut op (lut_op_mem hop) s.lutIn v hres
    refine ⟨_, run_two_of_lut_start _ (otherLut op) m' hother rfl ht, ?_⟩
    have hin : ({ s.lutEnd op m (some v) with lutIn := (s.lutEnd op m (some v)).lutOut } : State).lutIn = v := rfl
    rw [hin, hback]
    exact ⟨rfl, rfl⟩

/-- The values of LUT_IN a LUT command accepts. -/
def lutAccepts (op : BitVec 3) : List Nibble := if op = 2 then [0, 1, 2, 3, 4] else tileCodes

theorem lutResult_isNone : ∀ op ∈ ([2, 3] : List (BitVec 3)), ∀ x : Nibble,
    (lutResult op x).isNone = false ↔ x ∈ lutAccepts op := by decide

theorem lut_accepts_five (op : BitVec 3) (hop : op = 2 ∨ op = 3) (map : Bool) (i : Instr)
    (hexec : ∀ s, exec i s = .next (start op map s)) :
    ∃ five : List (BitVec 4), five.Nodup ∧ five.length = 5 ∧ ∀ s : State, s.busy = false → s.turns = [] →
      ∃ t u, exec i s = .next t ∧ Host.Core.run Sys2Proof.core 2 t = .next u ∧ (u.err = false ↔ s.lutIn ∈ five) := by
  have hfive : ∀ op ∈ ([2, 3] : List (BitVec 3)), (lutAccepts op).Nodup ∧ (lutAccepts op).length = 5 := by decide
  obtain ⟨hnodup, hlen⟩ := hfive op (lut_op_mem hop)
  exact ⟨lutAccepts op, hnodup, hlen, fun s hb ht =>
    ⟨_, _, hexec s, run_two_of_lut_start s op map hop hb ht, lutResult_isNone op (lut_op_mem hop) s.lutIn⟩⟩

/-- Settles O22: the tables are inverse on their five values each. -/
theorem lutCommandsAreInverse : Obligations.LutCommandsAreInverse := by
  refine ⟨fun s m m' x hx hb ht => ?inverse, fun i hi => ?five⟩
  case inverse =>
    rcases hx with rfl | rfl
    · obtain ⟨u, hrun, hback⟩ := run_lut_then_other s m m' 2 (.inl rfl) hb ht
      exact ⟨_, u, rfl, hrun, fun hok => ⟨_, (hback hok).choose, rfl, (hback hok).choose_spec⟩⟩
    · obtain ⟨u, hrun, hback⟩ := run_lut_then_other s m m' 3 (.inr rfl) hb ht
      exact ⟨_, u, rfl, hrun, fun hok => ⟨_, (hback hok).choose, rfl, (hback hok).choose_spec⟩⟩
  case five =>
    rcases hi with rfl | rfl | rfl | rfl
    · exact lut_accepts_five 2 (.inl rfl) false _ fun _ => rfl
    · exact lut_accepts_five 2 (.inl rfl) true _ fun _ => rfl
    · exact lut_accepts_five 3 (.inr rfl) false _ fun _ => rfl
    · exact lut_accepts_five 3 (.inr rfl) true _ fun _ => rfl

/-! ### Tile bytes (40_tile_lut.md R105) -/

theorem inValid_codes : ∀ b : Byte, inValid false b = true ↔ b ∈ ([0x00, 0x02, 0x04, 0x08, 0x0C] : List Byte) := by decide

theorem inValid_ids : ∀ b : Byte, inValid true b = true ↔ b.toNat ≤ 4 := by decide

theorem joinNibbles_hi_lo : ∀ b : Byte, joinNibbles (hiNibble b) (loNibble b) = b := by decide

theorem tileOfCode_eq_some (c : Nibble) (t : Tile) : tileOfCode c = some t ↔ c = t.code := by
  revert c
  cases t <;> decide

theorem tileOfId_eq_some (d : Nibble) (t : Tile) : tileOfId d = some t ↔ d = t.id := by
  revert d
  cases t <;> decide

theorem tileOfByte_toByte (map : Bool) (t : Tile) : tileOfByte map (t.toByte map) = some t := by
  cases map <;> cases t <;> rfl

/-- Only the byte of a tile stands for it. -/
theorem tileOfByte_eq_some (map : Bool) (b : Byte) (t : Tile) : tileOfByte map b = some t ↔ b = t.toByte map := by
  constructor
  · intro h
    unfold tileOfByte at h
    by_cases hhi : hiNibble b = 0
    · rw [if_pos hhi] at h
      rw [← joinNibbles_hi_lo b, hhi]
      cases map with
      | true => rw [(tileOfId_eq_some _ t).mp h]; rfl
      | false => rw [(tileOfCode_eq_some _ t).mp h]; rfl
    · rw [if_neg hhi] at h
      nomatch h
  · rintro rfl
    exact tileOfByte_toByte map t

/-- Settles O23: the valid bytes by evaluation, the conversion nibble by nibble. -/
theorem tileBytesFollowMap : Obligations.TileBytesFollowMap :=
  ⟨inValid_codes, inValid_ids, tileOfByte_eq_some, fun x => by cases x <;> exact ⟨rfl, rfl⟩, rfl, rfl⟩

end Sys2Proof.Machine

/-! SUPPORT. A command from its START to its completion: how many steps it takes, and what stays the same on the way, namely
the state the host will see at its end (41_rle_encode.md R134, 42_rle_decode.md R149). -/

namespace Sys2Proof.Machine

/-! ### States the host cannot tell apart -/

theorem looksLike_refl (s : State) : LooksLike s s := ⟨rfl, fun _ => rfl, fun _ => rfl⟩

theorem looksLike_trans {s t u : State} (h : LooksLike s t) (h' : LooksLike t u) : LooksLike s u :=
  ⟨h.1.trans h'.1, fun a => (h.2.1 a).trans (h'.2.1 a), fun a => (h.2.2 a).trans (h'.2.2 a)⟩

theorem looksLike_of_eq {s t : State} (h : s = t) : LooksLike s t := h ▸ looksLike_refl s

/-- Every register the host reads is part of what it sees. -/
theorem looksLike_registers {s t : State} (h : LooksLike s t) :
    s.statusWord = t.statusWord ∧ s.errPos = t.errPos ∧ s.lutOut = t.lutOut ∧ s.outCount = t.outCount ∧
      s.nibCount = t.nibCount := by
  have hfield {α : Type} (f : State → α) : f s.hostView = f t.hostView := congrArg f h.1
  exact ⟨hfield State.statusWord, hfield State.errPos, hfield State.lutOut, hfield State.outCount, hfield State.nibCount⟩

/-! ### Lines and steps of a running command -/

theorem linesLeft_pos (s : State) (h : Running s) : 1 ≤ s.linesLeft := by
  cases hp : s.phase with
  | idle => exact absurd hp h.active
  | eScan | eEmit =>
    obtain ⟨-, hpos, hr18, hi, -⟩ : Encoding s ∧ RunScanned s := by simpa only [PhaseLegal, hp] using h.legal
    simp only [State.linesLeft, hp]
    omega
  | _ =>
    simp only [State.linesLeft, hp]
    omega

theorem engineLines_idle (k : Nat) (s : State) (hb : s.busy = false) : engineLines k s = .next s := by
  induction k with
  | zero => rfl
  | succ k ih => rw [engineLines_succ_of_line k (engineLine_idle s hb), ih]

theorem engineLines_add {s t : State} (j k : Nat) (h : engineLines j s = .next t) :
    engineLines (j + k) s = engineLines k t := by
  induction j generalizing s with
  | zero =>
    cases h
    rw [Nat.zero_add]
  | succ j ih =>
    obtain ⟨u, hu, hrest⟩ := (andThen_eq_next _ _ t).mp h
    rw [Nat.add_right_comm, engineLines_succ_of_line (j + k) hu, ih hrest]

/-- Each line of a command that goes on uses up one of the lines it has left. -/
theorem engineLines_advance (k : Nat) (s t : State) (h : Running s) (ht : engineLines k s = .next t) :
    t.busy = false ∨ Running t ∧ t.linesLeft + k ≤ s.linesLeft := by
  induction k generalizing s with
  | zero =>
    cases ht
    exact .inr ⟨h, Nat.le_refl _⟩
  | succ k ih =>
    obtain ⟨u, hu, hadv⟩ := engineLine_advances s h
    rw [engineLines_succ_of_line k hu] at ht
    cases hadv with
    | ended hidle _ =>
      rw [engineLines_idle k u hidle] at ht
      cases ht
      exact .inl hidle
    | goesOn hrun hfewer =>
      rcases ih u hrun ht with hidle | ⟨hrun', hlines⟩
      · exact .inl hidle
      · exact .inr ⟨hrun', by omega⟩

/-- A running command ends within the lines it has left. -/
theorem engineLines_end (s : State) (h : Running s) :
    ∃ u k, k ≤ s.linesLeft ∧ engineLines k s = .next u ∧ u.busy = false := by
  suffices hwithin : ∀ n (s : State), Running s → s.linesLeft ≤ n →
      ∃ u k, k ≤ n ∧ engineLines k s = .next u ∧ u.busy = false from hwithin _ s h (Nat.le_refl _)
  intro n
  induction n with
  | zero => exact fun s h hn => absurd (linesLeft_pos s h) (Nat.not_le_of_lt (Nat.lt_succ_of_le hn))
  | succ n ih =>
    intro s h hn
    obtain ⟨t, ht, hadv⟩ := engineLine_advances s h
    cases hadv with
    | ended hidle _ => exact ⟨t, 1, Nat.le_add_left 1 n, engineLines_succ_of_line 0 ht, hidle⟩
    | goesOn hrun hfewer =>
      obtain ⟨u, k, hk, hlines, hidle⟩ := ih t hrun (by omega)
      exact ⟨u, k + 1, Nat.succ_le_succ hk, (engineLines_succ_of_line k ht).trans hlines, hidle⟩

theorem engineLines_turns (k : Nat) (s : State) (hinv : Inv s) : Keeps (fun t => t.turns = s.turns) (engineLines k s) := by
  induction k generalizing s with
  | zero => exact keeps_next rfl
  | succ k ih =>
    intro u hu
    obtain ⟨t, ht, hrest⟩ := (andThen_eq_next _ _ u).mp hu
    obtain ⟨-, -, -, -, -, -, -, -, -, -, -, -, hturns, -⟩ := engineWritesOnlyItsOutputWindow s t hinv ht
    exact (ih t (engineLine_inv s hinv t ht) u hrest).trans hturns

/-- In the default order of turns a step of a running command is some of its lines (log 1, log 11). -/
theorem step_eq_engineLines (s : State) (h : Running s) (hturns : s.turns = []) :
    ∃ t k, step s = .next t ∧ 1 ≤ k ∧ engineLines k s = .next t := by
  have hstep : step s = tokenTurn s := by
    rw [step_default s hturns, defaultTurn_busy s h.busy]
    rfl
  rw [hstep]
  cases hfetch : s.fetchToken with
  | none =>
    obtain ⟨t, ht, -⟩ := engineLine_advances s h
    exact ⟨t, 1, (tokenTurn_none s hfetch).trans ht, Nat.le_refl 1, engineLines_succ_of_line 0 ht⟩
  | some i =>
    obtain ⟨t, k, hexec, hk, -, hlines⟩ := exec_fetched_eq_engineLines s i h hfetch
    exact ⟨t, k, (tokenTurn_fetched s i hfetch).trans hexec, hk, hlines⟩

/-- A running command ends within as many steps as it has lines left, in a state its lines reach. -/
theorem run_end (s : State) (hinv : Inv s) (hb : s.busy = true) (hturns : s.turns = []) :
    ∃ u k m, k ≤ s.linesLeft ∧ Host.Core.run Sys2Proof.core k s = .next u ∧ engineLines m s = .next u ∧
      u.busy = false := by
  suffices hwithin : ∀ n (s : State), Inv s → s.busy = true → s.turns = [] → s.linesLeft ≤ n →
      ∃ u k m, k ≤ n ∧ Host.Core.run Sys2Proof.core k s = .next u ∧ engineLines m s = .next u ∧ u.busy = false from
    hwithin _ s hinv hb hturns (Nat.le_refl _)
  intro n
  induction n with
  | zero =>
    intro s hinv hb _ hn
    exact absurd (linesLeft_pos s (running_of_inv s hinv hb)) (Nat.not_le_of_lt (Nat.lt_succ_of_le hn))
  | succ n ih =>
    intro s hinv hb hturns hn
    have hrun := running_of_inv s hinv hb
    obtain ⟨t, j, hstep, hj, hlines⟩ := step_eq_engineLines s hrun hturns
    rcases engineLines_advance j s t hrun hlines with hidle | ⟨hrun', hfewer⟩
    · exact ⟨t, 1, j, Nat.le_add_left 1 n, run_succ_of_step 0 hstep, hlines, hidle⟩
    · have hturns' : t.turns = [] := (engineLines_turns j s hinv t hlines).trans hturns
      obtain ⟨u, k, m, hk, hrest, hm, hidle⟩ := ih t (engineLines_inv j s hinv t hlines) hrun'.busy hturns' (by omega)
      exact ⟨u, k + 1, j + m, Nat.succ_le_succ hk, (run_succ_of_step k hstep).trans hrest,
        (engineLines_add j m hlines).trans hm, hidle⟩

/-! ### The outcome of a command -/

/-- `outcome` tells of every state of the command what the host will see at its end: no engine line changes that, and at
the end it is the state itself. -/
structure IsOutcome (command : Command) (outcome : State → State) : Prop where
  line : ∀ s t, Running s → s.command = command → engineLine s = .next t → LooksLike (outcome t) (outcome s)
  ended : ∀ s, s.phase = .idle → outcome s = s

theorem looksLike_outcome {command : Command} {outcome : State → State} (h : IsOutcome command outcome) (k : Nat)
    (s u : State) (hinv : Inv s) (hb : s.busy = true) (hc : s.command = command) (hlines : engineLines k s = .next u)
    (hidle : u.busy = false) : LooksLike u (outcome s) := by
  induction k generalizing s with
  | zero =>
    cases hlines
    exact absurd hb (Bool.eq_false_iff.mp hidle)
  | succ k ih =>
    obtain ⟨t, ht, hrest⟩ := (andThen_eq_next _ _ u).mp hlines
    have hline := h.line s t (running_of_inv s hinv hb) hc ht
    have hinv' := engineLine_inv s hinv t ht
    obtain ⟨-, -, -, -, -, hop, -⟩ := engineWritesOnlyItsOutputWindow s t hinv ht
    by_cases hb' : t.busy = true
    · exact looksLike_trans (ih t hinv' hb' ((congrArg commandOf hop).trans hc) hrest) hline
    · have hidle' : t.busy = false := Bool.eq_false_iff.mpr hb'
      rw [engineLines_idle k t hidle'] at hrest
      cases hrest
      rwa [h.ended _ (phase_of_idle hinv' hidle')] at hline

/-- A completion that writes DST and the counts as given, whatever the hidden registers hold. -/
def State.finishWith (s : State) (dst : Memory) (outCount nibCount : Nat) : State :=
  complete { s with dst := dst, outCount := BitVec.ofNat 16 outCount, nibCount := BitVec.ofNat 17 nibCount }

theorem looksLike_finishWith {s t : State} (h : t = s.worked t) (dst : Memory) (outCount nibCount : Nat) :
    LooksLike (t.finishWith dst outCount nibCount) (s.finishWith dst outCount nibCount) := by
  rw [h]
  exact looksLike_refl _

theorem finishWith_statusWord (s : State) (dst : Memory) (outCount nibCount : Nat) :
    (s.finishWith dst outCount nibCount).statusWord = 0x00000002 := by
  simp [State.statusWord, State.finishWith, complete, flagAt]

end Sys2Proof.Machine

/-! SUPPORT. ENCODE as a whole (41_rle_encode.md R121, R122, R128): what the encoder's state machine has still to pack at each
phase, so that its completion is the one of the functional form. -/

namespace Sys2Proof.Machine

/-! ### The functional form -/

section
variable (s : State)

theorem encodeFunction_unfit (h : s.windowsFit = false) : encodeFunction s = raiseError .dimensionOverflow 0 s :=
  if_neg (Bool.eq_false_iff.mp h)

theorem encodeFunction_invalid (h : s.windowsFit = true) (j : Nat)
    (hcodes : Sys2Proof.tileCodes s.map 0 (s.srcBytes s.sb s.cells) = .error j) :
    encodeFunction s = raiseError .invalidTileCode j s := by
  rw [encodeFunction, afterCheck, if_pos h]
  simp only [hcodes]

theorem encodeFunction_valid (h : s.windowsFit = true) (T : List Nibble)
    (hcodes : Sys2Proof.tileCodes s.map 0 (s.srcBytes s.sb s.cells) = .ok T) :
    encodeFunction s = s.finishWith (storeBytes s.dst s.db (pack (rleEncode T))) (pack (rleEncode T)).length
      (rleEncode T).length := by
  rw [encodeFunction, afterCheck, if_pos h]
  simp only [hcodes]
  rfl

end

/-- The functional form does not look at the hidden registers. -/
theorem encodeFunction_looksLike {s t : State} (hc : s.command = .encode) (hsame : t = s.worked t) (hdst : t.dst = s.dst) :
    LooksLike (encodeFunction t) (encodeFunction s) := by
  have hraise (e : ErrorName) (pos : Nat) : LooksLike (raiseError e pos t) (raiseError e pos s) := by
    rw [hsame]
    have hop := op_of_encode s hc
    rw [raiseError_of_encode_op s hop, raiseError_of_encode_op (s.worked t) hop]
    exact ⟨rfl, fun _ => rfl, fun a => dstByte_congr rfl (congrArg (Memory.get? · a) hdst)⟩
  have hfit : t.windowsFit = s.windowsFit := by rw [hsame]; rfl
  have hcodes : Sys2Proof.tileCodes t.map 0 (t.srcBytes t.sb t.cells) =
      Sys2Proof.tileCodes s.map 0 (s.srcBytes s.sb s.cells) := by
    rw [hsame]
    rfl
  have hdb : t.db = s.db := by rw [hsame]; rfl
  cases hs : s.windowsFit with
  | false =>
    rw [encodeFunction_unfit s hs, encodeFunction_unfit t (hfit.trans hs)]
    exact hraise _ _
  | true =>
    cases hT : Sys2Proof.tileCodes s.map 0 (s.srcBytes s.sb s.cells) with
    | error j =>
      rw [encodeFunction_invalid s hs j hT, encodeFunction_invalid t (hfit.trans hs) j (hcodes.trans hT)]
      exact hraise _ _
    | ok T =>
      rw [encodeFunction_valid s hs T hT, encodeFunction_valid t (hfit.trans hs) T (hcodes.trans hT), hdst, hdb]
      exact looksLike_finishWith hsame _ _ _

/-! ### The input as tile codes -/

/-- The code of a tile byte. -/
def codeOfByte (map : Bool) (b : Byte) : Nibble := ((tileOfByte map b).map Tile.code).getD 0

theorem codeOfByte_of_tile {map : Bool} {b : Byte} {t : Tile} (h : tileOfByte map b = some t) :
    codeOfByte map b = t.code := by
  rw [codeOfByte, h]
  rfl

theorem tileCodes_valid (map : Bool) (bs : List Byte) (j : Nat) (h : ∀ b ∈ bs, inValid map b = true) :
    Sys2Proof.tileCodes map j bs = .ok (bs.map (codeOfByte map)) := by
  induction bs generalizing j with
  | nil => rfl
  | cons b bs ih =>
    obtain ⟨hb, hbs⟩ := List.forall_mem_cons.mp h
    obtain ⟨t, ht⟩ := Option.isSome_iff_exists.mp hb
    simp only [Sys2Proof.tileCodes, ht, ih (j + 1) hbs, List.map_cons, codeOfByte_of_tile ht]

theorem tileCodes_invalid (map : Bool) (bs rest : List Byte) (b : Byte) (j : Nat) (h : ∀ b ∈ bs, inValid map b = true)
    (hb : inValid map b = false) : Sys2Proof.tileCodes map j (bs ++ b :: rest) = .error (j + bs.length) := by
  induction bs generalizing j with
  | nil =>
    have hnone : tileOfByte map b = none := Option.isNone_iff_eq_none.mp (Option.not_isSome_iff_eq_none.mp
      (Bool.eq_false_iff.mp hb) ▸ rfl)
    simp only [List.nil_append, Sys2Proof.tileCodes, hnone]
    rfl
  | cons c bs ih =>
    obtain ⟨hc, hbs⟩ := List.forall_mem_cons.mp h
    obtain ⟨t, ht⟩ := Option.isSome_iff_exists.mp hc
    simp only [List.cons_append, Sys2Proof.tileCodes, ht, ih (j + 1) hbs, List.length_cons, Nat.add_assoc,
      Nat.add_comm 1]

theorem srcBytes_append (s : State) (base m n : Nat) :
    s.srcBytes base (m + n) = s.srcBytes base m ++ s.srcBytes (base + m) n := by
  simp only [State.srcBytes, List.range_add, List.map_append, List.map_map]
  refine congrArg _ (List.map_congr_left fun j _ => ?_)
  simp only [Function.comp_apply, Nat.add_assoc]

theorem length_srcBytes (s : State) (base n : Nat) : (s.srcBytes base n).length = n := by
  rw [State.srcBytes, List.length_map, List.length_range]

theorem mem_srcBytes (s : State) (base n : Nat) (b : Byte) :
    b ∈ s.srcBytes base n ↔ ∃ j, j < n ∧ s.srcByte (base + j) = b := by
  simp only [State.srcBytes, List.mem_map, List.mem_range]

/-- The codes of the input tiles from tile `i` on. -/
def State.codesFrom (s : State) (i : Nat) : List Nibble :=
  (s.srcBytes (s.sb + i) (s.cells - i)).map (codeOfByte s.map)

theorem codesFrom_end (s : State) : s.codesFrom s.cells = [] := by
  rw [State.codesFrom, Nat.sub_self]
  rfl

/-- The next `n` tiles, and those after them. -/
theorem codesFrom_append (s : State) (i n : Nat) (h : i + n ≤ s.cells) :
    s.codesFrom i = (s.srcBytes (s.sb + i) n).map (codeOfByte s.map) ++ s.codesFrom (i + n) := by
  have hlen : s.cells - i = n + (s.cells - (i + n)) := by omega
  rw [State.codesFrom, hlen, srcBytes_append, List.map_append, Nat.add_assoc]
  rfl

theorem drop_codesFrom (s : State) (i n : Nat) (h : i + n ≤ s.cells) : (s.codesFrom i).drop n = s.codesFrom (i + n) := by
  rw [codesFrom_append s i n h, List.drop_left']
  rw [List.length_map, length_srcBytes]

theorem head?_codesFrom (s : State) (i : Nat) (h : i < s.cells) :
    (s.codesFrom i).head? = some (codeOfByte s.map (s.srcByte (s.sb + i))) := by
  rw [codesFrom_append s i 1 h]
  rfl

/-- A scanned run stands at the front of the codes from its first tile. -/
theorem codesFrom_of_runScanned (s : State) (h : RunScanned s) :
    s.codesFrom s.i = List.replicate s.r s.cur ++ s.codesFrom (s.i + s.r) := by
  obtain ⟨-, -, hi, hcodes⟩ := h
  rw [codesFrom_append s s.i s.r hi]
  refine congrArg (· ++ _) (List.eq_replicate_iff.mpr ⟨by rw [List.length_map, length_srcBytes], fun c hc => ?_⟩)
  obtain ⟨b, hb, rfl⟩ := List.mem_map.mp hc
  obtain ⟨j, hj, rfl⟩ := (mem_srcBytes s _ _ b).mp hb
  rw [codeOfByte, Nat.add_assoc, hcodes j hj]
  rfl

/-! ### The packer (R128) -/

/-- The nibble that waits for its partner. -/
def State.held (s : State) : List Nibble := if s.half then [s.hold] else []

/-- The completion of an ENCODE that has the nibbles `ns` still to push. -/
def State.packEnd (s : State) (ns : List Nibble) : State :=
  s.finishWith (storeBytes s.dst (s.db + s.wb) (pack (s.held ++ ns))) (s.wb + (pack (s.held ++ ns)).length)
    (s.k + ns.length)

/-- A line that leaves the packer alone. -/
theorem packEnd_looksLike {s t : State} (ns : List Nibble) (hsame : t = s.worked t) (hdst : t.dst = s.dst)
    (hwb : t.wb = s.wb) (hk : t.k = s.k) (hheld : t.held = s.held) : LooksLike (t.packEnd ns) (s.packEnd ns) := by
  have hdb : t.db = s.db := by rw [hsame]; rfl
  rw [State.packEnd, hdst, hwb, hk, hheld, hdb]
  exact looksLike_finishWith hsame _ _ _

/-- A nibble pushed is one nibble less to push. -/
theorem push_packEnd {n : Nibble} {s t : State} (h : push n s = .next t) (ns : List Nibble) :
    t = s.worked t ∧ LooksLike (t.packEnd ns) (s.packEnd (n :: ns)) := by
  cases hhalf : s.half with
  | false =>
    rw [push_empty n s hhalf] at h
    cases h
    have hheld : s.held = [] := if_neg (Bool.eq_false_iff.mp hhalf)
    refine ⟨rfl, ?_⟩
    rw [State.packEnd, State.packEnd, hheld, List.length_cons, ← Nat.add_assoc, Nat.add_right_comm]
    exact looksLike_finishWith (t := { s with k := s.k + 1, hold := n, half := true }) rfl _ _ _
  | true =>
    obtain ⟨-, rfl⟩ := (push_half n s t hhalf).mp h
    have hheld : s.held = [s.hold] := if_pos hhalf
    have hbytes : s.wb + (pack (s.held ++ n :: ns)).length = s.wb + 1 + (pack ns).length := by
      rw [hheld, List.singleton_append, pack, List.length_cons]
      omega
    have hnibs : s.k + (n :: ns).length = s.k + 1 + ns.length := by
      rw [List.length_cons]
      omega
    refine ⟨rfl, ?_⟩
    rw [State.packEnd, State.packEnd, hbytes, hnibs, hheld]
    exact looksLike_finishWith rfl _ _ _

/-- E_FLUSH completes as one with nothing more to push. -/
theorem eFlushLine_packEnd {s t : State} (h : eFlushLine s = .next t) : LooksLike t (s.packEnd []) := by
  obtain ⟨u, hu, ht⟩ := (andThen_eq_next _ _ t).mp h
  cases ht
  unfold flushHalf at hu
  cases hhalf : s.half with
  | false =>
    rw [if_neg (Bool.eq_false_iff.mp hhalf)] at hu
    cases hu
    have hheld : s.held = [] := if_neg (Bool.eq_false_iff.mp hhalf)
    rw [State.packEnd, hheld]
    exact looksLike_refl _
  | true =>
    rw [if_pos hhalf] at hu
    obtain ⟨v, hv, hu⟩ := (andThen_eq_next _ _ u).mp hu
    obtain ⟨-, rfl⟩ := (memWrite_eq_next _ _ s v).mp hv
    cases hu
    have hheld : s.held = [s.hold] := if_pos hhalf
    rw [State.packEnd, hheld]
    exact looksLike_refl _

/-! ### The outcome, phase by phase -/

/-- What the host will see at the end of an ENCODE that is in the state `s`. -/
def encodeOutcome (s : State) : State :=
  match s.phase with
  | .check | .eVal => encodeFunction s
  | .eLoad | .eScan | .eFlush => s.packEnd (rleEncode (s.codesFrom s.i))
  | .eEmit => s.packEnd (groupNibbles s.cur s.r ++ rleEncode (s.codesFrom (s.i + groupTiles s.r)))
  | _ => s

theorem encodeOutcome_idle (s : State) (h : s.phase = .idle) : encodeOutcome s = s := by simp only [encodeOutcome, h]

theorem encodeOutcome_raiseError (e : ErrorName) (pos : Nat) (s : State) :
    encodeOutcome (raiseError e pos s) = raiseError e pos s :=
  encodeOutcome_idle _ (by rw [raiseError_eq]; rfl)

theorem encodeOutcome_check (s : State) (h : s.phase = .check) : encodeOutcome s = encodeFunction s := by
  simp only [encodeOutcome, h]

theorem encodeOutcome_eVal (s : State) (h : s.phase = .eVal) : encodeOutcome s = encodeFunction s := by
  simp only [encodeOutcome, h]

theorem encodeOutcome_eEmit (s : State) (h : s.phase = .eEmit) :
    encodeOutcome s = s.packEnd (groupNibbles s.cur s.r ++ rleEncode (s.codesFrom (s.i + groupTiles s.r))) := by
  simp only [encodeOutcome, h]

theorem encodeOutcome_packing (s : State) (h : s.phase = .eLoad ∨ s.phase = .eScan ∨ s.phase = .eFlush) :
    encodeOutcome s = s.packEnd (rleEncode (s.codesFrom s.i)) := by
  rcases h with h | h | h <;> simp only [encodeOutcome, h]

/-- E_VAL after the last tile: all of the input is still to be packed. -/
theorem eValLine_end_encodeOutcome (s t : State) (hfit : s.windowsFit = true) (hvalid : InputValid s s.cells) (hp : s.phase = .eVal)
    (hend : s.i = s.cells) (ht : eValLine s = .next t) : LooksLike (encodeOutcome t) (encodeOutcome s) := by
  have hcodes : Sys2Proof.tileCodes s.map 0 (s.srcBytes s.sb s.cells) = .ok (s.codesFrom 0) := by
    refine tileCodes_valid s.map _ 0 fun b hb => ?_
    obtain ⟨j, hj, rfl⟩ := (mem_srcBytes s _ _ b).mp hb
    exact hvalid j hj
  rw [encodeOutcome_eVal s hp, encodeFunction_valid s hfit _ hcodes]
  rw [eValLine, if_pos hend] at ht
  cases ht
  have hphase : (if s.cells = 0 then Phase.eFlush else .eLoad) = .eLoad ∨
      (if s.cells = 0 then Phase.eFlush else .eLoad) = .eScan ∨
      (if s.cells = 0 then Phase.eFlush else .eLoad) = .eFlush := by
    split
    · exact .inr (.inr rfl)
    · exact .inl rfl
  rw [encodeOutcome_packing _ hphase, State.packEnd]
  simp only [Nat.zero_add]
  exact looksLike_finishWith (t := { s with
    i := 0, k := 0, half := false, wb := 0, phase := if s.cells = 0 then .eFlush else .eLoad }) rfl _ _ _

section
variable (s t : State) (hc : s.command = .encode)
include hc

theorem checkLine_encodeOutcome (hp : s.phase = .check) (ht : checkLine s = .next t) :
    LooksLike (encodeOutcome t) (encodeOutcome s) := by
  rw [encodeOutcome_check s hp]
  simp only [checkLine, hc] at ht
  cases hfit : s.windowsFit with
  | true =>
    rw [if_pos hfit] at ht
    cases ht
    rw [encodeOutcome_eVal _ rfl]
    exact encodeFunction_looksLike hc rfl rfl
  | false =>
    rw [if_neg (Bool.eq_false_iff.mp hfit)] at ht
    cases ht
    rw [encodeOutcome_raiseError, encodeFunction_unfit s hfit]
    exact looksLike_refl _

theorem eValLine_encodeOutcome (hfit : s.windowsFit = true) (hi : s.i ≤ s.cells) (hvalid : InputValid s s.i)
    (hp : s.phase = .eVal) (ht : eValLine s = .next t) : LooksLike (encodeOutcome t) (encodeOutcome s) := by
  obtain ⟨hsrc, -⟩ := windows_of_encode s hc hfit
  rcases Nat.lt_or_eq_of_le hi with hlt | hend
  · have hinside : s.sb + s.i < s.srcSize := by omega
    cases hv : inValid s.map (s.srcByte (s.sb + s.i)) with
    | true =>
      rw [eValLine_valid s hlt hinside hv] at ht
      cases ht
      rw [encodeOutcome_eVal s hp, encodeOutcome_eVal { s with i := s.i + 1 } hp]
      exact encodeFunction_looksLike hc rfl rfl
    | false =>
      rw [eValLine_invalid s hlt hinside hv] at ht
      cases ht
      have hsplit : s.cells = s.i + (1 + (s.cells - (s.i + 1))) := by omega
      have hcodes : Sys2Proof.tileCodes s.map 0 (s.srcBytes s.sb s.cells) = .error (0 + (s.srcBytes s.sb s.i).length) := by
        rw [hsplit, srcBytes_append, srcBytes_append]
        refine tileCodes_invalid s.map _ _ _ 0 (fun b hb => ?_) hv
        obtain ⟨j, hj, rfl⟩ := (mem_srcBytes s _ _ b).mp hb
        exact hvalid j hj
      rw [length_srcBytes, Nat.zero_add] at hcodes
      rw [encodeOutcome_raiseError, encodeOutcome_eVal s hp, encodeFunction_invalid s hfit s.i hcodes]
      exact looksLike_refl _
  · exact eValLine_end_encodeOutcome s t hfit (hend ▸ hvalid) hp hend ht

end

/-- The end of a scan: the run it has found is the first group of what is left (R124). -/
theorem rleEncode_of_runScanned (s : State) (h : RunScanned s)
    (hstop : s.i + s.r < s.cells → s.r < 18 → codeOfByte s.map (s.srcByte (s.sb + (s.i + s.r))) ≠ s.cur) :
    rleEncode (s.codesFrom s.i) = groupNibbles s.cur s.r ++ rleEncode (s.codesFrom (s.i + groupTiles s.r)) := by
  obtain ⟨hpos, hr18, hi, -⟩ := id h
  have hmax : s.r = 18 ∨ (s.codesFrom (s.i + s.r)).head? ≠ some s.cur := by
    by_cases hr : s.r = 18
    · exact .inl hr
    · refine .inr fun hhead => ?_
      by_cases hmore : s.i + s.r < s.cells
      · rw [head?_codesFrom s _ hmore] at hhead
        exact hstop hmore (by omega) (Option.some.inj hhead)
      · have hend : s.i + s.r = s.cells := by omega
        rw [hend, codesFrom_end] at hhead
        nomatch hhead
  have hgroup := groupTiles_le hpos
  have hrun := codesFrom_of_runScanned s h
  rw [hrun, rleEncode_group s.cur s.r _ hpos hr18 hmax, ← hrun, drop_codesFrom s s.i _ (by omega)]

theorem eLoadLine_encodeOutcome (s t : State) (hp : s.phase = .eLoad) (ht : eLoadLine s = .next t) :
    LooksLike (encodeOutcome t) (encodeOutcome s) := by
  obtain ⟨-, tile, -, hnext⟩ := (readTileCode_eq_next s s.i _ t).mp ht
  cases hnext
  rw [encodeOutcome_packing s (.inl hp), encodeOutcome_packing _ (.inr (.inl rfl))]
  exact packEnd_looksLike _ rfl rfl rfl rfl rfl

theorem eScanLine_encodeOutcome (s t : State) (hrun : RunScanned s) (hp : s.phase = .eScan)
    (ht : eScanLine s = .next t) : LooksLike (encodeOutcome t) (encodeOutcome s) := by
  have hemit (hstop : s.i + s.r < s.cells → s.r < 18 → codeOfByte s.map (s.srcByte (s.sb + (s.i + s.r))) ≠ s.cur) :
      LooksLike (encodeOutcome { s with phase := .eEmit }) (encodeOutcome s) := by
    rw [encodeOutcome_packing s (.inr (.inl hp)), encodeOutcome_eEmit _ rfl, rleEncode_of_runScanned s hrun hstop]
    exact packEnd_looksLike _ rfl rfl rfl rfl rfl
  unfold eScanLine at ht
  by_cases hmore : s.i + s.r < s.cells ∧ s.r < 18
  · rw [if_pos hmore] at ht
    obtain ⟨-, tile, htile, hnext⟩ := (readTileCode_eq_next s _ _ t).mp ht
    by_cases hsame : tile.code = s.cur
    · rw [if_pos hsame] at hnext
      cases hnext
      rw [encodeOutcome_packing s (.inr (.inl hp)), encodeOutcome_packing { s with r := s.r + 1 } (.inr (.inl hp))]
      exact packEnd_looksLike _ rfl rfl rfl rfl rfl
    · rw [if_neg hsame] at hnext
      cases hnext
      exact hemit fun _ _ => by rwa [codeOfByte_of_tile htile]
  · rw [if_neg hmore] at ht
    cases ht
    exact hemit fun hlt hr => absurd ⟨hlt, hr⟩ hmore

/-- The end of E_EMIT: the group is pushed, and the rest begins after its tiles. -/
theorem nextRun_encodeOutcome (s u : State) (tiles : Nat) (hsame : u = s.worked u) (hi : u.i = s.i) :
    LooksLike (encodeOutcome (nextRun tiles u)) (u.packEnd (rleEncode (s.codesFrom (s.i + tiles)))) := by
  have hphase : (nextRun tiles u).phase = .eLoad ∨ (nextRun tiles u).phase = .eScan ∨ (nextRun tiles u).phase = .eFlush := by
    unfold nextRun
    dsimp only
    split
    · exact .inl rfl
    · exact .inr (.inr rfl)
  have hcodes : (nextRun tiles u).codesFrom (nextRun tiles u).i = s.codesFrom (s.i + tiles) := by
    have hnext : (nextRun tiles u).codesFrom (nextRun tiles u).i = u.codesFrom (u.i + tiles) := rfl
    rw [hnext, hi, hsame]
    rfl
  rw [encodeOutcome_packing _ hphase, hcodes]
  exact packEnd_looksLike _ rfl rfl rfl rfl rfl

theorem eEmitLine_encodeOutcome (s t : State) (hrun : RunScanned s) (hp : s.phase = .eEmit)
    (ht : eEmitLine s = .next t) : LooksLike (encodeOutcome t) (encodeOutcome s) := by
  obtain ⟨-, hr18, -⟩ := hrun
  rw [encodeOutcome_eEmit s hp]
  unfold eEmitLine at ht
  by_cases hlit : s.r < 3
  · rw [if_pos hlit] at ht
    obtain ⟨u, hu, hnext⟩ := (andThen_eq_next _ _ t).mp ht
    cases hnext
    rw [groupNibbles_lit _ hlit, groupTiles_lit hlit]
    obtain ⟨hsame, hpack⟩ := push_packEnd hu (rleEncode (s.codesFrom (s.i + 1)))
    exact looksLike_trans (nextRun_encodeOutcome s u 1 hsame (push_i hu)) hpack
  · rw [if_neg hlit, if_pos hr18] at ht
    obtain ⟨u, hu, ht⟩ := (andThen_eq_next _ _ t).mp ht
    obtain ⟨v, hv, hnext⟩ := (andThen_eq_next _ _ t).mp ht
    cases hnext
    rw [groupNibbles_run _ hlit, groupTiles_run hlit]
    obtain ⟨hsame', hpack'⟩ := push_packEnd hv (rleEncode (s.codesFrom (s.i + s.r)))
    obtain ⟨hsame, hpack⟩ := push_packEnd hu (BitVec.ofNat 4 (s.r - 3) :: rleEncode (s.codesFrom (s.i + s.r)))
    have hboth : v = s.worked v := hsame'.trans (by rw [hsame]; rfl)
    exact looksLike_trans (nextRun_encodeOutcome s v s.r hboth ((push_i hv).trans (push_i hu)))
      (looksLike_trans hpack' hpack)

theorem eFlushLine_encodeOutcome (s t : State) (hi : s.i = s.cells) (hp : s.phase = .eFlush)
    (ht : eFlushLine s = .next t) : LooksLike (encodeOutcome t) (encodeOutcome s) := by
  have hidle : t.phase = .idle := by
    obtain ⟨u, -, hnext⟩ := (andThen_eq_next _ _ t).mp ht
    cases hnext
    rfl
  rw [encodeOutcome_idle t hidle, encodeOutcome_packing s (.inr (.inr hp)), hi, codesFrom_end, rleEncode_nil]
  exact eFlushLine_packEnd ht

theorem encodeOutcome_isOutcome : IsOutcome .encode encodeOutcome where
  ended := encodeOutcome_idle
  line s t h hc ht := by
    have hlegal := h.legal
    have hdecode : ¬ Decoding s := fun hdec => nomatch hc.symm.trans hdec.1
    rw [engineLine_busy s h.busy] at ht
    unfold phaseLine at ht
    cases hp : s.phase with
    | idle => exact absurd hp h.active
    | check =>
      simp only [hp] at ht
      exact checkLine_encodeOutcome s t hc hp ht
    | eVal =>
      simp only [hp] at ht
      obtain ⟨-, hfit, hi, hvalid⟩ : s.command = .encode ∧ s.windowsFit = true ∧ s.i ≤ s.cells ∧ InputValid s s.i := by
        simpa only [PhaseLegal, hp] using hlegal
      exact eValLine_encodeOutcome s t hc hfit hi hvalid hp ht
    | eLoad =>
      simp only [hp] at ht
      exact eLoadLine_encodeOutcome s t hp ht
    | eScan =>
      simp only [hp] at ht
      obtain ⟨-, hrun⟩ : Encoding s ∧ RunScanned s := by simpa only [PhaseLegal, hp] using hlegal
      exact eScanLine_encodeOutcome s t hrun hp ht
    | eEmit =>
      simp only [hp] at ht
      obtain ⟨-, hrun⟩ : Encoding s ∧ RunScanned s := by simpa only [PhaseLegal, hp] using hlegal
      exact eEmitLine_encodeOutcome s t hrun hp ht
    | eFlush =>
      simp only [hp] at ht
      obtain ⟨-, hi⟩ : Encoding s ∧ s.i = s.cells := by simpa only [PhaseLegal, hp] using hlegal
      exact eFlushLine_encodeOutcome s t hi hp ht
    | dHead => exact absurd (by simpa only [PhaseLegal, hp] using hlegal) hdecode
    | dCount | dRun | dTail =>
      simp only [PhaseLegal, hp] at hlegal
      exact absurd hlegal.1 hdecode
    | lut =>
      simp only [PhaseLegal, hp, State.isLut, hc] at hlegal
      nomatch hlegal

/-! ### ENCODE from its START -/

/-- The state after an accepted START (R170). -/
def State.started (s : State) (op : BitVec 3) (map : Bool) : State :=
  { s with
    op := op, map := map, busy := true, done := false, err := false, errCode := 0
    outCount := 0, nibCount := 0, errPos := 0, phase := .check }

theorem start_eq_started (op : BitVec 3) (map : Bool) (s : State) (hb : s.busy = false) :
    start op map s = s.started op map := start_idle op map s hb

/-- From its START an ENCODE runs to the state of its functional form. -/
theorem run_encode (s : State) (map : Bool) (hinv : Inv s) (hb : s.busy = false) (hturns : s.turns = []) :
    ∃ u k, k ≤ 21 * s.cells + 3 ∧ Host.Core.run Sys2Proof.core k (start 0 map s) = .next u ∧ u.busy = false ∧
      LooksLike u (encodeFunction (s.started 0 map)) := by
  have hstart := start_inv 0 map s hinv
  rw [start_eq_started 0 map s hb] at hstart ⊢
  obtain ⟨u, k, m, hk, hrun, hlines, hidle⟩ := run_end _ hstart rfl hturns
  exact ⟨u, k, hk, hrun, hidle, looksLike_outcome encodeOutcome_isOutcome m _ u hstart rfl rfl hlines hidle⟩

/-- Settles O37: the outcome of the state after START is the functional form. -/
theorem encodeMachineIsItsFunction : Obligations.EncodeMachineIsItsFunction := by
  intro s map hinv hb hturns
  obtain ⟨u, k, hk, hrun, hidle, hlook⟩ := run_encode s map hinv hb hturns
  exact ⟨start 0 map s, u, k, rfl, hk, hrun, hidle, start_eq_started 0 map s hb ▸ hlook⟩

/-- The bytes of DST after `bs` has been stored from `base`. -/
theorem getD_get?_storeBytes (m : Memory) (base : Nat) (bs : List Byte) (a : Nat) (free : Byte) :
    ((storeBytes m base bs).get? a).getD free =
      if base ≤ a ∧ a < base + bs.length then (bs[a - base]?).getD free else (m.get? a).getD free := by
  rw [get?_storeBytes]
  split <;> rfl

/-- The tiles in SRC as E_VAL reads them. -/
theorem tileCodes_of_tiles (s : State) (tiles : List Tile) (hlen : tiles.length = s.cells)
    (htiles : ∀ (j : Nat) (x : Tile), tiles[j]? = some x → s.srcByte (s.sb + j) = x.toByte s.map) :
    Sys2Proof.tileCodes s.map 0 (s.srcBytes s.sb s.cells) = .ok (tiles.map Tile.code) := by
  have hbytes : s.srcBytes s.sb s.cells = tiles.map (Tile.toByte s.map) := by
    refine List.ext_getElem? fun j => ?_
    rw [List.getElem?_map]
    by_cases hj : j < s.cells
    · have hget : tiles[j]? = some tiles[j] := List.getElem?_eq_getElem (hlen ▸ hj)
      rw [getElem?_srcBytes s s.sb s.cells j hj, hget, htiles j _ hget]
      rfl
    · rw [List.getElem?_eq_none (by rw [length_srcBytes]; omega), List.getElem?_eq_none (by omega)]
      rfl
  have hvalid : ∀ b ∈ tiles.map (Tile.toByte s.map), inValid s.map b = true := by
    intro b hb
    obtain ⟨t, -, rfl⟩ := List.mem_map.mp hb
    rw [inValid, tileOfByte_toByte]
    rfl
  have hcode : codeOfByte s.map ∘ Tile.toByte s.map = Tile.code :=
    funext fun t => codeOfByte_of_tile (tileOfByte_toByte s.map t)
  rw [hbytes, tileCodes_valid s.map _ 0 hvalid, List.map_map, hcode]

/-- Settles O38: the functional form on tiles, read off the state the machine ends in. -/
theorem encodeWritesThePayload : Obligations.EncodeWritesThePayload := by
  intro s map tiles hinv hb hturns hsrc hdst hlen htiles
  obtain ⟨u, k, -, hrun, -, hlook⟩ := run_encode s map hinv hb hturns
  refine ⟨start 0 map s, u, k, rfl, hrun, ?_⟩
  rw [encodeFunction_valid (s.started 0 map) ((windowsFit_of_encode_op (s.started 0 map) rfl).mpr ⟨hsrc, hdst⟩) _
    (tileCodes_of_tiles (s.started 0 map) tiles hlen htiles)] at hlook
  obtain ⟨hstatus, herrPos, hlutOut, hout, hnib⟩ := looksLike_registers hlook
  obtain ⟨hK, -, -, -, hbytes⟩ := encodingNeverExpands (tiles.map Tile.code)
  have hcells := cells_lt s
  rw [List.length_map, hlen] at hK hbytes
  have hout' : u.outCount.toNat = (pack (rleEncode (tiles.map Tile.code))).length := by
    rw [hout]
    exact Nat.mod_eq_of_lt (by omega)
  have hnib' : u.nibCount.toNat = (rleEncode (tiles.map Tile.code)).length := by
    rw [hnib]
    exact Nat.mod_eq_of_lt (by omega)
  refine ⟨hstatus.trans (finishWith_statusWord _ _ _ _), herrPos, hlutOut, hout', hnib', fun j b hj => ?written,
    fun a ha => ?others, hlook.2.1⟩
  case written =>
    obtain ⟨hlt, -⟩ := List.getElem?_eq_some_iff.mp hj
    refine (hlook.2.2 _).trans ((getD_get?_storeBytes s.dst s.db _ _ _).trans ?_)
    rw [if_pos ⟨Nat.le_add_right _ _, Nat.add_lt_add_left hlt _⟩, Nat.add_sub_cancel_left, hj]
    rfl
  case others =>
    rw [hout'] at ha
    exact (hlook.2.2 _).trans ((getD_get?_storeBytes s.dst s.db _ _ _).trans (if_neg ha))

end Sys2Proof.Machine

/-! SUPPORT. DECODE as a whole (42_rle_decode.md R140, R141, R147): what the decoder's state machine has still to write at each
phase, so that its completion is the one of the functional form. -/

namespace Sys2Proof.Machine

/-! ### The functional form -/

/-- The completion of a DECODE whose tiles still to write are `result`, from DST[db + out] on. -/
def State.decodeEnd (s : State) (result : Except DecodeFailure (List Nibble × Nat)) : State :=
  match checkTail s.payloadLen result with
  | .error (e, pos) => s.windowUnspecified.recordError e pos
  | .ok (T, p) => s.finishWith (storeBytes s.dst (s.db + s.out) (T.map (outByte s.map))) s.cells p

section
variable (s : State)

theorem decodeEnd_of_checkTail_error {result : Except DecodeFailure (List Nibble × Nat)} {e : ErrorName} {pos : Nat}
    (h : checkTail s.payloadLen result = .error (e, pos)) :
    s.decodeEnd result = s.windowUnspecified.recordError e pos := by
  simp only [State.decodeEnd, h]

theorem decodeEnd_of_checkTail_ok {result : Except DecodeFailure (List Nibble × Nat)} {T : List Nibble} {p : Nat}
    (h : checkTail s.payloadLen result = .ok (T, p)) :
    s.decodeEnd result = s.finishWith (storeBytes s.dst (s.db + s.out) (T.map (outByte s.map))) s.cells p := by
  simp only [State.decodeEnd, h]

theorem decodeFunction_unfit (h : s.windowsFit = false) : decodeFunction s = raiseError .dimensionOverflow 0 s :=
  if_neg (Bool.eq_false_iff.mp h)

theorem decodeFunction_error (h : s.windowsFit = true) {e : ErrorName} {pos : Nat}
    (hr : rleDecode (unpackBytes (s.srcBytes s.sb s.payloadLen)) s.payloadLen s.cells = .error (e, pos)) :
    decodeFunction s = s.windowUnspecified.recordError e pos := by
  rw [decodeFunction, afterCheck, if_pos h]
  simp only [hr]

theorem decodeFunction_ok (h : s.windowsFit = true) {T : List Nibble} {p : Nat}
    (hr : rleDecode (unpackBytes (s.srcBytes s.sb s.payloadLen)) s.payloadLen s.cells = .ok (T, p)) :
    decodeFunction s = s.finishWith (storeBytes s.dst s.db (T.map (outByte s.map))) s.cells p := by
  rw [decodeFunction, afterCheck, if_pos h]
  simp only [hr]
  rfl

end

/-- An error of a DECODE past its CHECK is the completion with that error. -/
theorem raiseError_eq_decodeEnd (s : State) (hc : s.command = .decode) (hp : s.phase ≠ .check) (e : ErrorName) (pos : Nat) :
    raiseError e pos s = s.decodeEnd (.error (e, pos)) :=
  raiseError_decoding e pos s ((isDecoding_iff s).mpr ⟨op_of_decode s hc, hp⟩)

/-! ### Lines that write no tile, and lines that write one -/

/-- No line changes the operands of the command. -/
theorem operands_of_worked {s t : State} (hsame : t = s.worked t) :
    t.payloadLen = s.payloadLen ∧ t.db = s.db ∧ t.map = s.map ∧ t.cells = s.cells := by
  rw [hsame]
  exact ⟨rfl, rfl, rfl, rfl⟩

theorem recordError_looksLike {s t : State} (hsame : t = s.worked t)
    (hdst : ∀ a, t.windowUnspecified.dst.get? a = s.windowUnspecified.dst.get? a) (e : ErrorName) (pos : Nat) :
    LooksLike (t.windowUnspecified.recordError e pos) (s.windowUnspecified.recordError e pos) := by
  rw [hsame] at hdst ⊢
  exact ⟨rfl, fun _ => rfl, fun a => dstByte_congr rfl (hdst a)⟩

theorem windowUnspecified_dst_worked {s t : State} (hsame : t = s.worked t) :
    t.windowUnspecified.dst = fillWindow t.dst s.dstSize s.draws s.db s.outputLen := by
  rw [hsame]
  rfl

theorem windowUnspecified_dst_congr {s t : State} (hsame : t = s.worked t) (hdst : t.dst = s.dst) (a : Nat) :
    t.windowUnspecified.dst.get? a = s.windowUnspecified.dst.get? a := by
  rw [windowUnspecified_dst_worked hsame, hdst]
  rfl

/-- A line that writes no tile. -/
theorem decodeEnd_looksLike {s t : State} (hsame : t = s.worked t) (hdst : t.dst = s.dst)
    (hout : t.out = s.out) (result : Except DecodeFailure (List Nibble × Nat)) :
    LooksLike (t.decodeEnd result) (s.decodeEnd result) := by
  obtain ⟨hL, hdb, hmap, hcells⟩ := operands_of_worked hsame
  cases hr : checkTail s.payloadLen result with
  | error x =>
    rw [decodeEnd_of_checkTail_error s hr, decodeEnd_of_checkTail_error t (hL ▸ hr)]
    exact recordError_looksLike hsame (windowUnspecified_dst_congr hsame hdst) _ _
  | ok x =>
    rw [decodeEnd_of_checkTail_ok s hr, decodeEnd_of_checkTail_ok t (hL ▸ hr), hdst, hout, hdb, hmap, hcells]
    exact looksLike_finishWith hsame _ _ _

theorem checkTail_prependTiles (L : Nat) (T : List Nibble) (result : Except DecodeFailure (List Nibble × Nat)) :
    checkTail L (prependTiles T result) = prependTiles T (checkTail L result) := by
  cases result with
  | error x => rfl
  | ok x =>
    simp only [prependTiles, checkTail]
    split <;> rfl

/-- A line that writes the tile of code `c`: one tile less to write, and an error would fill its byte too (U3). -/
theorem decodeEnd_write {s t : State} (hc : s.command = .decode) (hfit : s.windowsFit = true) (hmore : s.out < s.cells)
    (c : Nibble) (hsame : t = s.worked t) (hdst : t.dst = s.dst.set (s.db + s.out) (outByte s.map c))
    (hout : t.out = s.out + 1) (result : Except DecodeFailure (List Nibble × Nat)) :
    LooksLike (t.decodeEnd result) (s.decodeEnd (prependTiles [c] result)) := by
  obtain ⟨-, hinside⟩ := windows_of_decode s hc hfit
  obtain ⟨hL, hdb, hmap, hcells⟩ := operands_of_worked hsame
  have htail := checkTail_prependTiles s.payloadLen [c] result
  cases hr : checkTail s.payloadLen result with
  | error x =>
    rw [hr, prependTiles_error] at htail
    rw [decodeEnd_of_checkTail_error s htail, decodeEnd_of_checkTail_error t (hL ▸ hr)]
    refine recordError_looksLike hsame (fun a => ?_) _ _
    rw [windowUnspecified_dst_worked hsame, windowUnspecified_dst, get?_fillWindow, get?_fillWindow, hdst,
      outputLen_of_decode s hc]
    by_cases hwin : s.db ≤ a ∧ a < s.db + s.cells ∧ a < s.dstSize
    · rw [if_pos hwin, if_pos hwin]
    · rw [if_neg hwin, if_neg hwin]
      exact get?_set_other _ _ (by omega)
  | ok x =>
    obtain ⟨T, p⟩ := x
    rw [hr, prependTiles_ok] at htail
    rw [decodeEnd_of_checkTail_ok s htail, decodeEnd_of_checkTail_ok t (hL ▸ hr), hdst, hout, hdb, hmap, hcells]
    exact looksLike_finishWith hsame _ _ _

/-! ### The nibbles left -/

/-- The nibbles of the payload from number `q` on. -/
def State.nibsFrom (s : State) (q : Nat) : List Nibble := (unpackBytes (s.srcBytes s.sb s.payloadLen)).drop q

theorem length_unpackBytes (bs : List Byte) : (unpackBytes bs).length = 2 * bs.length := by
  induction bs with
  | nil => rfl
  | cons b bs ih =>
    simp only [unpackBytes, List.length_cons, ih]
    omega

theorem length_payloadNibbles (s : State) : (unpackBytes (s.srcBytes s.sb s.payloadLen)).length = 2 * s.payloadLen := by
  rw [length_unpackBytes, length_srcBytes]

theorem nibsFrom_cons (s : State) (q : Nat) (hq : q < 2 * s.payloadLen) : s.nibsFrom q = s.nib q :: s.nibsFrom (q + 1) := by
  have hlen : q < (unpackBytes (s.srcBytes s.sb s.payloadLen)).length := (length_payloadNibbles s).symm ▸ hq
  have hget := fetchedNibblesAreTheUnpackedPayload s q hq
  rw [List.getElem?_eq_getElem hlen] at hget
  rw [State.nibsFrom, List.drop_eq_getElem_cons hlen, Option.some.inj hget]
  rfl

theorem nibsFrom_end (s : State) : s.nibsFrom (2 * s.payloadLen) = [] :=
  List.drop_eq_nil_of_le (length_payloadNibbles s).le

/-! ### The outcome, phase by phase -/

/-- What the host will see at the end of a DECODE that is in the state `s`. -/
def decodeOutcome (s : State) : State :=
  match s.phase with
  | .check => decodeFunction s
  | .dHead => s.decodeEnd (decodeTiles (s.cells - s.out) (s.nibsFrom s.p) s.p)
  | .dCount => s.decodeEnd (decodeCount s.cur (s.cells - s.out) (s.nibsFrom (s.p + 1)) s.p)
  | .dRun =>
    s.decodeEnd (prependTiles (List.replicate s.reps s.cur)
      (decodeTiles (s.cells - (s.out + s.reps)) (s.nibsFrom s.p) s.p))
  | .dTail => s.decodeEnd (.ok ([], s.p))
  | _ => s

theorem decodeOutcome_idle (s : State) (h : s.phase = .idle) : decodeOutcome s = s := by simp only [decodeOutcome, h]

theorem decodeOutcome_raiseError (e : ErrorName) (pos : Nat) (s : State) :
    decodeOutcome (raiseError e pos s) = raiseError e pos s :=
  decodeOutcome_idle _ (by rw [raiseError_eq]; rfl)

theorem decodeOutcome_check (s : State) (h : s.phase = .check) : decodeOutcome s = decodeFunction s := by
  simp only [decodeOutcome, h]

theorem decodeOutcome_dHead (s : State) (h : s.phase = .dHead) :
    decodeOutcome s = s.decodeEnd (decodeTiles (s.cells - s.out) (s.nibsFrom s.p) s.p) := by
  simp only [decodeOutcome, h]

theorem decodeOutcome_dCount (s : State) (h : s.phase = .dCount) :
    decodeOutcome s = s.decodeEnd (decodeCount s.cur (s.cells - s.out) (s.nibsFrom (s.p + 1)) s.p) := by
  simp only [decodeOutcome, h]

theorem decodeOutcome_dRun (s : State) (h : s.phase = .dRun) :
    decodeOutcome s = s.decodeEnd (prependTiles (List.replicate s.reps s.cur)
      (decodeTiles (s.cells - (s.out + s.reps)) (s.nibsFrom s.p) s.p)) := by
  simp only [decodeOutcome, h]

theorem decodeOutcome_dTail (s : State) (h : s.phase = .dTail) : decodeOutcome s = s.decodeEnd (.ok ([], s.p)) := by
  simp only [decodeOutcome, h]

/-- A state with no tile written yet has all of the functional form still to do. -/
theorem decodeEnd_start {s t : State} (hfit : s.windowsFit = true) (hsame : t = s.worked t) (hdst : t.dst = s.dst)
    (hout : t.out = 0) :
    LooksLike (t.decodeEnd (decodeTiles s.cells (unpackBytes (s.srcBytes s.sb s.payloadLen)) 0)) (decodeFunction s) := by
  obtain ⟨hL, hdb, hmap, hcells⟩ := operands_of_worked hsame
  cases hr : rleDecode (unpackBytes (s.srcBytes s.sb s.payloadLen)) s.payloadLen s.cells with
  | error x =>
    have htail : checkTail t.payloadLen (decodeTiles s.cells (unpackBytes (s.srcBytes s.sb s.payloadLen)) 0) = .error x := by
      rw [hL, ← rleDecode_eq, hr]
    rw [decodeFunction_error s hfit hr, decodeEnd_of_checkTail_error t htail]
    exact recordError_looksLike hsame (windowUnspecified_dst_congr hsame hdst) _ _
  | ok x =>
    have htail : checkTail t.payloadLen (decodeTiles s.cells (unpackBytes (s.srcBytes s.sb s.payloadLen)) 0) = .ok x := by
      rw [hL, ← rleDecode_eq, hr]
    rw [decodeFunction_ok s hfit hr, decodeEnd_of_checkTail_ok t htail, hdst, hout, hdb, hmap, hcells, Nat.add_zero]
    exact looksLike_finishWith hsame _ _ _

theorem checkLine_decodeOutcome (s t : State) (hc : s.command = .decode) (hp : s.phase = .check) (ht : checkLine s = .next t) :
    LooksLike (decodeOutcome t) (decodeOutcome s) := by
  rw [decodeOutcome_check s hp]
  cases hfit : s.windowsFit with
  | true =>
    rw [checkLine_of_decode_op s (op_of_decode s hc) hfit] at ht
    cases ht
    rw [decodeOutcome_dHead _ rfl]
    exact decodeEnd_start (t := { s with p := 0, out := 0, phase := .dHead }) hfit rfl rfl rfl
  | false =>
    simp only [checkLine, hc, hfit, Bool.false_eq_true, if_false] at ht
    cases ht
    rw [decodeOutcome_raiseError, decodeFunction_unfit s hfit]
    exact looksLike_refl _

/-- A line that ends a DECODE past its CHECK with an error. -/
theorem raiseError_decodeOutcome (s : State) (hc : s.command = .decode) (hp : s.phase ≠ .check) (e : ErrorName) (pos : Nat) :
    LooksLike (decodeOutcome (raiseError e pos s)) (s.decodeEnd (.error (e, pos))) := by
  rw [decodeOutcome_raiseError, raiseError_eq_decodeEnd s hc hp]
  exact looksLike_refl _

theorem outByte_code (map : Bool) (tile : Tile) : outByte map tile.code = tile.toByte map := by
  rw [outByte, tileOfCode_code]

theorem outByte_of_tile {map : Bool} {c : Nibble} {tile : Tile} (h : tileOfCode c = some tile) :
    outByte map c = tile.toByte map := by
  rw [outByte, h]

theorem dHeadLine_decodeOutcome (s t : State) (hdec : Decoding s) (hp : s.phase = .dHead) (ht : dHeadLine s = .next t) :
    LooksLike (decodeOutcome t) (decodeOutcome s) := by
  obtain ⟨hc, hfit, hout, hptr⟩ := id hdec
  have hpast : s.phase ≠ .check := by rw [hp]; exact nofun
  rw [decodeOutcome_dHead s hp]
  by_cases hend : s.out = s.cells
  · rw [dHeadLine, if_pos hend] at ht
    cases ht
    have hzero : s.cells - s.out = 0 := by omega
    rw [decodeOutcome_dTail _ rfl, hzero, decodeTiles_zero]
    exact decodeEnd_looksLike (t := { s with phase := .dTail }) rfl rfl rfl _
  have hm : s.cells - s.out ≠ 0 := by omega
  have hmore : s.out < s.cells := by omega
  by_cases hover : s.p = 2 * s.payloadLen
  · rw [dHeadLine, if_neg hend, if_pos hover] at ht
    cases ht
    have hnil : s.nibsFrom s.p = [] := by rw [hover, nibsFrom_end]
    rw [hnil, decodeTiles_nil hm]
    exact raiseError_decodeOutcome s hc hpast _ _
  have hq : s.p < 2 * s.payloadLen := by omega
  rw [dHeadLine_of_nib s hdec hmore hq] at ht
  rw [nibsFrom_cons s s.p hq]
  cases headKind (s.nib s.p) with
  | lit tile hhead =>
    have hcode := validCode_code tile
    rw [hhead, headLine_lit] at ht
    obtain ⟨-, rfl⟩ := (litHead_eq_next tile s t).mp ht
    rw [hhead, decodeTiles_lit hm _ _ (terrainValid_of_validCode _ hcode) (controlBit_of_validCode _ hcode), Nat.sub_sub,
      decodeOutcome_dHead { s with
        dst := s.dst.set (s.db + s.out) (tile.toByte s.map), out := s.out + 1, p := s.p + 1 } hp]
    exact decodeEnd_write (t := { s with
        dst := s.dst.set (s.db + s.out) (tile.toByte s.map), out := s.out + 1, p := s.p + 1 })
      hc hfit hmore tile.code rfl (by rw [outByte_code]) rfl _
  | run tile hhead =>
    have hterrain := terrainCode_runHead _ (validCode_code tile)
    have hvalid : terrainValid (tile.code ||| 1) = true := by rw [terrainValid, hterrain, validCode_code]
    rw [hhead, headLine_run] at ht
    cases ht
    rw [hhead, decodeTiles_run hm _ _ hvalid (controlBit_runHead _), hterrain, decodeOutcome_dCount _ rfl]
    exact decodeEnd_looksLike (t := runHead tile.code s) rfl rfl rfl _
  | invalid i hmem =>
    have hvalid : terrainValid (s.nib s.p) = false := by
      rw [terrainValid, validCode, tileOfCode_terrain_invalid _ hmem]
      rfl
    rw [headLine_invalid s _ hmem] at ht
    cases ht
    rw [decodeTiles_invalid hm _ _ hvalid]
    exact raiseError_decodeOutcome s hc hpast _ _

theorem dCountLine_decodeOutcome (s t : State) (hdec : Decoding s) (hout : s.out < s.cells) (hq : s.p < 2 * s.payloadLen)
    (hp : s.phase = .dCount) (ht : dCountLine s = .next t) : LooksLike (decodeOutcome t) (decodeOutcome s) := by
  obtain ⟨hc, -⟩ := id hdec
  have hpast : s.phase ≠ .check := by rw [hp]; exact nofun
  rw [decodeOutcome_dCount s hp]
  by_cases hmissing : s.p + 1 = 2 * s.payloadLen
  · rw [dCountLine, if_pos ((countMissing_iff s).mpr hmissing)] at ht
    cases ht
    rw [hmissing, nibsFrom_end, decodeCount, ← hmissing]
    exact raiseError_decodeOutcome s hc hpast _ _
  have hpresent : s.p + 1 < 2 * s.payloadLen := by omega
  rw [dCountLine_of_nib s hdec hpresent] at ht
  cases ht
  rw [nibsFrom_cons s (s.p + 1) hpresent, decodeCount]
  by_cases hroom : s.out + (s.nib (s.p + 1)).toNat + 3 > s.cells
  · have hroom' : (s.nib (s.p + 1)).toNat + 3 > s.cells - s.out := by omega
    rw [runCount_overrun _ s hroom, if_pos hroom']
    exact raiseError_decodeOutcome s hc hpast _ _
  · have hroom' : ¬ (s.nib (s.p + 1)).toNat + 3 > s.cells - s.out := by omega
    rw [runCount, if_neg hroom, if_neg hroom', decodeOutcome_dRun _ rfl, Nat.sub_sub]
    exact decodeEnd_looksLike
      (t := { s with reps := (s.nib (s.p + 1)).toNat + 3, p := s.p + 2, phase := .dRun }) rfl rfl rfl _

theorem dRunLine_decodeOutcome (s t : State) (hc : s.command = .decode) (hfit : s.windowsFit = true) (hpos : 1 ≤ s.reps)
    (hroom : s.out + s.reps ≤ s.cells) (hp : s.phase = .dRun) (ht : dRunLine s = .next t) :
    LooksLike (decodeOutcome t) (decodeOutcome s) := by
  obtain ⟨tile, htile, -, hnext⟩ := (dRunLine_eq_next s t).mp ht
  have hwrite : ∀ result, LooksLike (t.decodeEnd result) (s.decodeEnd (prependTiles [s.cur] result)) :=
    decodeEnd_write hc hfit (by omega) s.cur (by rw [hnext]; rfl) (by rw [hnext, outByte_of_tile htile]) (by rw [hnext])
  have hreps : List.replicate s.reps s.cur = [s.cur] ++ List.replicate (s.reps - 1) s.cur := by
    rw [List.singleton_append, ← List.replicate_succ, Nat.sub_add_cancel hpos]
  have hleft : s.out + s.reps = s.out + 1 + (s.reps - 1) := by omega
  rw [decodeOutcome_dRun s hp, hreps, prependTiles_append, hleft]
  by_cases hlast : s.reps - 1 = 0
  · have houtcome : decodeOutcome t = t.decodeEnd (decodeTiles (s.cells - (s.out + 1)) (s.nibsFrom s.p) s.p) := by
      rw [hnext]
      exact decodeOutcome_dHead _ (if_pos hlast)
    rw [houtcome, hlast, List.replicate_zero, prependTiles_nil]
    exact hwrite _
  · have houtcome : decodeOutcome t = t.decodeEnd (prependTiles (List.replicate (s.reps - 1) s.cur)
        (decodeTiles (s.cells - (s.out + 1 + (s.reps - 1))) (s.nibsFrom s.p) s.p)) := by
      rw [hnext]
      exact decodeOutcome_dRun _ (if_neg hlast)
    rw [houtcome]
    exact hwrite _

theorem dTailLine_decodeOutcome (s t : State) (hc : s.command = .decode) (hend : s.out = s.cells) (hp : s.phase = .dTail)
    (ht : dTailLine s = .next t) : LooksLike (decodeOutcome t) (decodeOutcome s) := by
  have hpast : s.phase ≠ .check := by rw [hp]; exact nofun
  rw [decodeOutcome_dTail s hp]
  unfold dTailLine at ht
  by_cases hunread : halfUp s.p < s.payloadLen
  · rw [if_pos hunread] at ht
    cases ht
    have htail : checkTail s.payloadLen (.ok ([], s.p)) = .error (.payloadLengthMismatch, s.p) := if_pos hunread
    rw [decodeEnd_of_checkTail_error s htail]
    exact raiseError_decodeOutcome s hc hpast _ _
  · rw [if_neg hunread] at ht
    cases ht
    have htail : checkTail s.payloadLen (.ok ([], s.p)) = .ok ([], s.p) := if_neg hunread
    rw [decodeEnd_of_checkTail_ok s htail, ← hend]
    exact looksLike_of_eq (decodeOutcome_idle _ rfl)

theorem decodeOutcome_isOutcome : IsOutcome .decode decodeOutcome where
  ended := decodeOutcome_idle
  line s t h hc ht := by
    have hlegal := h.legal
    have hencode : ¬ Encoding s := fun henc => nomatch hc.symm.trans henc.1
    rw [engineLine_busy s h.busy] at ht
    unfold phaseLine at ht
    cases hp : s.phase with
    | idle => exact absurd hp h.active
    | check =>
      simp only [hp] at ht
      exact checkLine_decodeOutcome s t hc hp ht
    | eVal =>
      simp only [PhaseLegal, hp] at hlegal
      nomatch hc.symm.trans hlegal.1
    | eLoad | eScan | eEmit | eFlush =>
      simp only [PhaseLegal, hp] at hlegal
      exact absurd hlegal.1 hencode
    | dHead =>
      simp only [hp] at ht
      exact dHeadLine_decodeOutcome s t (by simpa only [PhaseLegal, hp] using hlegal) hp ht
    | dCount =>
      simp only [hp] at ht
      obtain ⟨hdec, hout, hq, -⟩ :
          Decoding s ∧ s.out < s.cells ∧ s.p < 2 * s.payloadLen ∧ validCode s.cur = true := by
        simpa only [PhaseLegal, hp] using hlegal
      exact dCountLine_decodeOutcome s t hdec hout hq hp ht
    | dRun =>
      simp only [hp] at ht
      obtain ⟨⟨-, hfit, -⟩, hpos, -, hroom, -⟩ :
          Decoding s ∧ 1 ≤ s.reps ∧ s.reps ≤ 18 ∧ s.out + s.reps ≤ s.cells ∧ validCode s.cur = true := by
        simpa only [PhaseLegal, hp] using hlegal
      exact dRunLine_decodeOutcome s t hc hfit hpos hroom hp ht
    | dTail =>
      simp only [hp] at ht
      obtain ⟨-, hend⟩ : Decoding s ∧ s.out = s.cells := by simpa only [PhaseLegal, hp] using hlegal
      exact dTailLine_decodeOutcome s t hc hend hp ht
    | lut =>
      simp only [PhaseLegal, hp, State.isLut, hc] at hlegal
      nomatch hlegal

/-! ### DECODE from its START -/

theorem started_inv (op : BitVec 3) (map : Bool) (s : State) (hinv : Inv s) (hb : s.busy = false) :
    Inv (s.started op map) := start_eq_started op map s hb ▸ start_inv op map s hinv

/-- From CHECK on a DECODE takes at most 3N + 3 lines (R149). -/
theorem decode_lines (s : State) (hrun : Running s) (hc : s.command = .decode) (hp : s.phase = .check) :
    ∃ u k, k ≤ 3 * s.cells + 4 ∧ engineLines k s = .next u ∧ u.busy = false := by
  have hline := engineLine_of_check s hrun.busy hp
  cases hfit : s.windowsFit with
  | true =>
    have hnext := hline.trans (checkLine_of_decode_op s (op_of_decode s hc) hfit)
    have hrun' : Running { s with p := 0, out := 0, phase := .dHead } :=
      ⟨hrun.busy, nofun, hc, hfit, Nat.zero_le _, Nat.zero_le _⟩
    obtain ⟨u, k, hk, hlines, hidle⟩ := engineLines_end _ hrun'
    have hk' : k ≤ 3 * s.cells + 2 := hk
    exact ⟨u, k + 1, by omega, (engineLines_succ_of_line k hnext).trans hlines, hidle⟩
  | false =>
    have hnext := hline.trans (checkLine_of_windows_unfit s (.inr hc) hp hfit)
    exact ⟨_, 1, by omega, engineLines_succ_of_line 0 hnext, rfl⟩

/-- Settles O40: the outcome of the state after START is the functional form. -/
theorem decodeMachineIsItsFunction : Obligations.DecodeMachineIsItsFunction := by
  intro s map hinv hb _
  have hstart := started_inv 1 map s hinv hb
  obtain ⟨u, k, hk, hlines, hidle⟩ := decode_lines (s.started 1 map) (running_of_inv _ hstart rfl) rfl rfl
  refine ⟨s.started 1 map, u, k, congrArg Host.Outcome.next (start_eq_started 1 map s hb), hk, hlines, hidle, ?_⟩
  exact looksLike_outcome decodeOutcome_isOutcome k _ u hstart rfl rfl hlines hidle

theorem run_decode (s : State) (map : Bool) (hinv : Inv s) (hb : s.busy = false) (hturns : s.turns = []) :
    ∃ u k, Host.Core.run Sys2Proof.core k (s.started 1 map) = .next u ∧ LooksLike u (decodeFunction (s.started 1 map)) := by
  have hstart := started_inv 1 map s hinv hb
  obtain ⟨u, k, m, -, hrun, hlines, hidle⟩ := run_end _ hstart rfl hturns
  exact ⟨u, k, hrun, looksLike_outcome decodeOutcome_isOutcome m _ u hstart rfl rfl hlines hidle⟩

/-- Settles O41: the functional form on a good payload, read off the state the machine ends in. -/
theorem decodeWritesTheTiles : Obligations.DecodeWritesTheTiles := by
  intro s map tiles p hinv hb hturns hsrc hdst hdecode
  obtain ⟨u, k, hrun, hlook⟩ := run_decode s map hinv hb hturns
  refine ⟨s.started 1 map, u, k, congrArg Host.Outcome.next (start_eq_started 1 map s hb), hrun, ?_⟩
  have hfit := (windowsFit_of_decode_op (s.started 1 map) rfl).mpr ⟨hsrc, hdst⟩
  rw [decodeFunction_ok (s.started 1 map) hfit hdecode] at hlook
  obtain ⟨hstatus, herrPos, hlutOut, hout, hnib⟩ := looksLike_registers hlook
  obtain ⟨hlen, -, hp, -⟩ :=
    successfulDecodeHasExactCounts _ _ _ _ _ (length_payloadNibbles s) hdecode
  have hL := payloadLen_lt s
  rw [List.length_map] at hlen
  have hbytes : ((tiles.map Tile.code).map (outByte map)) = tiles.map (Tile.toByte map) := by
    rw [List.map_map]
    exact List.map_congr_left fun tile _ => outByte_code map tile
  have hbyte (a : Nat) : u.dstByte a =
      if s.db ≤ a ∧ a < s.db + s.cells then ((tiles.map (Tile.toByte map))[a - s.db]?).getD (Config.powerOnDst s.epoch a)
      else s.dstByte a := by
    refine (hlook.2.2 a).trans ((getD_get?_storeBytes s.dst s.db _ a _).trans ?_)
    rw [List.length_map, List.length_map, hlen]
    exact if_congr Iff.rfl (congrArg (fun l : List Byte => (l[a - s.db]?).getD _) hbytes) rfl
  refine ⟨hstatus.trans (finishWith_statusWord _ _ _ _), herrPos, hlutOut, ?outCount, ?nibCount, fun j x hj => ?written,
    fun a ha => (hbyte a).trans (if_neg ha), hlook.2.1⟩
  case outCount =>
    rw [hout]
    exact (BitVec.ofNat_toNat 16 s.cellCount).trans (BitVec.setWidth_eq _)
  case nibCount =>
    rw [hnib]
    exact Nat.mod_eq_of_lt (by omega)
  case written =>
    obtain ⟨hlt, -⟩ := List.getElem?_eq_some_iff.mp hj
    rw [hbyte, if_pos ⟨Nat.le_add_right _ _, by omega⟩, Nat.add_sub_cancel_left, List.getElem?_map, hj]
    rfl

/-- Settles O42: the payload decodes to the tiles (R132), and DECODE writes what the payload decodes to. -/
theorem decodeRestoresAnEncodedPayload : Obligations.DecodeRestoresAnEncodedPayload := by
  intro s map tiles hinv hb hturns hsrc hdst hpayload hcells
  have hcodes : ∀ c ∈ tiles.map Tile.code, validCode c = true := by
    intro c hc
    obtain ⟨t, -, rfl⟩ := List.mem_map.mp hc
    exact validCode_code t
  have hdecode : rleDecode (unpackBytes (s.srcBytes s.sb s.payloadLen)) s.payloadLen s.cells =
      .ok (tiles.map Tile.code, (rleEncode (tiles.map Tile.code)).length) := by
    have h := decodeOfEncodedTilesIsTheTiles (tiles.map Tile.code) hcodes
    rwa [List.length_map, ← hcells, ← hpayload, length_srcBytes] at h
  obtain ⟨t, u, k, hexec, hrun, hstatus, -, -, hout, hnib, hwritten, -⟩ :=
    decodeWritesTheTiles s map tiles _ hinv hb hturns hsrc hdst hdecode
  exact ⟨t, u, k, hexec, hrun, hstatus, hout, hnib, hwritten⟩

end Sys2Proof.Machine
